-- ==== Sys2Proof/Word.lean ====
section
/-! DEFINITION. The word types of the machine (R4, R5, R34). -/

namespace Sys2Proof

/-- A 32-bit instruction word, and a lane's register value (R34, R97). -/
abbrev Word := BitVec 32

/-- A 64-bit uniform register value (R97). -/
abbrev DWord := BitVec 64

/-- One byte of memory (R5). -/
abbrev Byte := BitVec 8

/-- A 57-bit virtual address (R228). -/
abbrev VA := BitVec 57

/-- One bit per lane of a warp (R18). -/
abbrev LaneMask := BitVec 64

end Sys2Proof
end

