-- ==== Sys2Proof/Syntax.lean ====
section
/-! DEFINITION. The instructions: one constructor per row of the opcode table (R37, R49, R50). The first 195 carry
the fields of an instruction word in the layout of its format (Table 1 of 02_encoding.md); the remaining rows are the
events of the machine that no word names, with the agents and operands that each acts on. -/

namespace Sys2Proof

/-- A firmware image in the module's flash (R400): the load address that its signed header names, its security version, the bytes that are
loaded, the public key that comes with it, and its signature (DESIGN CHOICE, log entry 3). -/
structure FwImage where
  load : Nat
  version : Nat
  bytes : List Byte
  modulus : Nat
  exponent : Nat
  signature : List Byte
  deriving DecidableEq, Repr

/-- Formats L3 and U3: [23] nw, [22:20] guard, [19] negate, a, b, d, x (R37). -/
structure Fmt3 where
  nw : Bool
  g : BitVec 3
  neg : Bool
  a : BitVec 6
  b : BitVec 6
  d : BitVec 6
  x : Bool
  deriving DecidableEq, Repr

/-- Formats L4 and U4: as L3 with a third source c in place of d (R37). -/
structure Fmt4 where
  nw : Bool
  g : BitVec 3
  neg : Bool
  a : BitVec 6
  b : BitVec 6
  c : BitVec 6
  x : Bool
  deriving DecidableEq, Repr

/-- Formats LI and UI: a source and a 13-bit immediate (R37). -/
structure FmtI where
  nw : Bool
  g : BitVec 3
  neg : Bool
  a : BitVec 6
  imm : BitVec 13
  deriving DecidableEq, Repr

/-- Format LP: compares and predicate logic of both sets; `r` is the reserved bit 23 (R37). -/
structure FmtP where
  r : Bool
  g : BitVec 3
  neg : Bool
  a : BitVec 6
  b : BitVec 6
  dp : BitVec 3
  cc : BitVec 3
  x : Bool
  deriving DecidableEq, Repr

/-- Format CV: conversions (R37, R45, R46). -/
structure FmtV where
  nw : Bool
  g : BitVec 3
  neg : Bool
  a : BitVec 6
  sf : BitVec 4
  df : BitVec 4
  rm : BitVec 3
  sat : Bool
  x : Bool
  deriving DecidableEq, Repr

/-- Format LM: memory words of both sets; `r` is the reserved bit 23 (R37, R48). -/
structure FmtM where
  r : Bool
  g : BitVec 3
  neg : Bool
  a : BitVec 6
  b : BitVec 6
  base : BitVec 4
  f : BitVec 3
  deriving DecidableEq, Repr

/-- Format LC: lane control; `r` is the reserved bit 23 (R37). -/
structure FmtL where
  r : Bool
  g : BitVec 3
  neg : Bool
  a : BitVec 6
  imm : BitVec 13
  deriving DecidableEq, Repr

/-- Format UB: [23:21] guard, [20] negate, [19:0] signed word offset (R37). -/
structure FmtB where
  g : BitVec 3
  neg : Bool
  off : BitVec 20
  deriving DecidableEq, Repr

/-- The rows of the opcode table. -/
inductive Instr where
  /-- NOP: lane opcode 0x00 (R92). -/
  | nop (z : BitVec 24)
  /-- IF: lane opcode 0x01 (R74). -/
  | if_ (f : FmtL)
  /-- ELSE: lane opcode 0x02 (R74). -/
  | else_ (f : FmtL)
  /-- ENDIF: lane opcode 0x03 (R74). -/
  | endif (f : FmtL)
  /-- DO: lane opcode 0x04 (R75). -/
  | do_ (f : FmtL)
  /-- ENDDO: lane opcode 0x05 (R75). -/
  | enddo (f : FmtL)
  /-- BRK: lane opcode 0x06 (R75). -/
  | brk (f : FmtL)
  /-- CONT: lane opcode 0x07 (R75). -/
  | cont (f : FmtL)
  /-- BRX: lane opcode 0x08 (R78). -/
  | brx (f : FmtL)
  /-- RCV: lane opcode 0x09 (R79). -/
  | rcv (f : FmtL)
  /-- BAR: lane opcode 0x0A (R90). -/
  | bar (f : FmtL)
  /-- BARA: lane opcode 0x0B (R90). -/
  | bara (f : FmtL)
  /-- BARW: lane opcode 0x0C (R90). -/
  | barw (f : FmtL)
  /-- TRIG: lane opcode 0x0D (R92). -/
  | trig (f : FmtL)
  /-- YIELD: lane opcode 0x0E (R92). -/
  | yield (f : FmtL)
  /-- EXIT: lane opcode 0x0F (R93). -/
  | exit (f : FmtL)
  /-- MOV: lane opcode 0x10 (R115). -/
  | mov (f : Fmt3)
  /-- MOVI: lane opcode 0x11 (R115). -/
  | movi (f : FmtI)
  /-- IADD: lane opcode 0x12 (R115). -/
  | iadd (f : Fmt3)
  /-- ISUB: lane opcode 0x13 (R115). -/
  | isub (f : Fmt3)
  /-- IMUL: lane opcode 0x14 (R115). -/
  | imul (f : Fmt3)
  /-- IMULH: lane opcode 0x15 (R115). -/
  | imulh (f : Fmt3)
  /-- IMAD: lane opcode 0x16 (R115). -/
  | imad (f : Fmt4)
  /-- IMIN: lane opcode 0x17 (R115). -/
  | imin (f : Fmt3)
  /-- IMAX: lane opcode 0x18 (R115). -/
  | imax (f : Fmt3)
  /-- IABS: lane opcode 0x19 (R115). -/
  | iabs (f : Fmt3)
  /-- ADDI: lane opcode 0x1A (R115). -/
  | addi (f : FmtI)
  /-- AND: lane opcode 0x1B (R115). -/
  | and (f : Fmt3)
  /-- OR: lane opcode 0x1C (R115). -/
  | or (f : Fmt3)
  /-- XOR: lane opcode 0x1D (R115). -/
  | xor (f : Fmt3)
  /-- ANDN: lane opcode 0x1E (R115). -/
  | andn (f : Fmt3)
  /-- ANDI: lane opcode 0x1F (R115). -/
  | andi (f : FmtI)
  /-- ORI: lane opcode 0x20 (R115). -/
  | ori (f : FmtI)
  /-- XORI: lane opcode 0x21 (R115). -/
  | xori (f : FmtI)
  /-- SHL: lane opcode 0x22 (R116). -/
  | shl (f : Fmt3)
  /-- SHR: lane opcode 0x23 (R116). -/
  | shr (f : Fmt3)
  /-- SAR: lane opcode 0x24 (R116). -/
  | sar (f : Fmt3)
  /-- ROT: lane opcode 0x25 (R116). -/
  | rot (f : Fmt3)
  /-- SHLI: lane opcode 0x26 (R115). -/
  | shli (f : FmtI)
  /-- SHRI: lane opcode 0x27 (R115). -/
  | shri (f : FmtI)
  /-- SARI: lane opcode 0x28 (R115). -/
  | sari (f : FmtI)
  /-- POPC: lane opcode 0x29 (R115). -/
  | popc (f : Fmt3)
  /-- CLZ: lane opcode 0x2A (R115). -/
  | clz (f : Fmt3)
  /-- BREV: lane opcode 0x2B (R115). -/
  | brev (f : Fmt3)
  /-- BFX: lane opcode 0x2C (R117). -/
  | bfx (f : Fmt3)
  /-- BFI: lane opcode 0x2D (R117). -/
  | bfi (f : Fmt4)
  /-- REDX: lane opcode 0x2E (R129). -/
  | redx (f : Fmt3)
  /-- SCAN: lane opcode 0x2F (R130). -/
  | scan (f : Fmt3)
  /-- ICMP_W: lane opcode 0x30 (R118). -/
  | icmpW (f : FmtP)
  /-- ICMP_H2: lane opcode 0x31 (R118). -/
  | icmpH2 (f : FmtP)
  /-- ICMP_B4: lane opcode 0x32 (R118). -/
  | icmpB4 (f : FmtP)
  /-- FCMP: lane opcode 0x33 (R119). -/
  | fcmp (f : FmtP)
  /-- BCMP2: lane opcode 0x34 (R119). -/
  | bcmp2 (f : FmtP)
  /-- PLOG: lane opcode 0x35 (R121). -/
  | plog (f : FmtP)
  /-- PSET: lane opcode 0x36 (R122). -/
  | pset (f : FmtP)
  /-- PGET: lane opcode 0x37 (R122). -/
  | pget (f : Fmt3)
  /-- SEL: lane opcode 0x38 (R123). -/
  | sel (f : Fmt4)
  /-- SHFL: lane opcode 0x39 (R125). -/
  | shfl (f : Fmt3)
  /-- SHFLUP: lane opcode 0x3A (R125). -/
  | shflup (f : Fmt3)
  /-- SHFLDN: lane opcode 0x3B (R125). -/
  | shfldn (f : Fmt3)
  /-- SHFLX: lane opcode 0x3C (R125). -/
  | shflx (f : Fmt3)
  /-- VOTE: lane opcode 0x3D (R126). -/
  | vote (f : Fmt3)
  /-- MATCH: lane opcode 0x3E (R127). -/
  | match_ (f : Fmt3)
  /-- FADD: lane opcode 0x40 (R157). -/
  | fadd (f : Fmt3)
  /-- FSUB: lane opcode 0x41 (R157). -/
  | fsub (f : Fmt3)
  /-- FMUL: lane opcode 0x42 (R157). -/
  | fmul (f : Fmt3)
  /-- FFMA: lane opcode 0x43 (R157). -/
  | ffma (f : Fmt4)
  /-- FMIN: lane opcode 0x44 (R159). -/
  | fmin (f : Fmt3)
  /-- FMAX: lane opcode 0x45 (R159). -/
  | fmax (f : Fmt3)
  /-- BADD2: lane opcode 0x46 (R157). -/
  | badd2 (f : Fmt3)
  /-- BMUL2: lane opcode 0x47 (R157). -/
  | bmul2 (f : Fmt3)
  /-- BFMA2: lane opcode 0x48 (R157). -/
  | bfma2 (f : Fmt4)
  /-- HADD2: lane opcode 0x49 (R157). -/
  | hadd2 (f : Fmt3)
  /-- HMUL2: lane opcode 0x4A (R157). -/
  | hmul2 (f : Fmt3)
  /-- HFMA2: lane opcode 0x4B (R157). -/
  | hfma2 (f : Fmt4)
  /-- FRCP: lane opcode 0x4C (R160). -/
  | frcp (f : Fmt3)
  /-- FRSQ: lane opcode 0x4D (R160). -/
  | frsq (f : Fmt3)
  /-- FSQRT: lane opcode 0x4E (R160). -/
  | fsqrt (f : Fmt3)
  /-- FEXP2: lane opcode 0x4F (R160). -/
  | fexp2 (f : Fmt3)
  /-- FLOG2: lane opcode 0x50 (R160). -/
  | flog2 (f : Fmt3)
  /-- FSIN: lane opcode 0x51 (R160). -/
  | fsin (f : Fmt3)
  /-- FCOS: lane opcode 0x52 (R160). -/
  | fcos (f : Fmt3)
  /-- FTANH: lane opcode 0x53 (R160). -/
  | ftanh (f : Fmt3)
  /-- CVT: lane opcode 0x54 (R162). -/
  | cvt (f : FmtV)
  /-- CVTP: lane opcode 0x55 (R163). -/
  | cvtp (f : FmtV)
  /-- CVTU: lane opcode 0x56 (R164). -/
  | cvtu (f : FmtV)
  /-- FRND: lane opcode 0x57 (R165). -/
  | frnd (f : FmtV)
  /-- I2F: lane opcode 0x58 (R166). -/
  | i2f (f : FmtV)
  /-- F2I: lane opcode 0x59 (R167). -/
  | f2i (f : FmtV)
  /-- MXQ: lane opcode 0x5A (R168). -/
  | mxq (f : FmtV)
  /-- MXD: lane opcode 0x5B (R169). -/
  | mxd (f : FmtV)
  /-- DOT4: lane opcode 0x5C (R170). -/
  | dot4 (f : Fmt4)
  /-- LDS: lane opcode 0x60 (R221). -/
  | lds (f : FmtM)
  /-- STS: lane opcode 0x61 (R221). -/
  | sts (f : FmtM)
  /-- ATS: lane opcode 0x62 (R222). -/
  | ats (f : FmtM)
  /-- FPUSH: lane opcode 0x64 (R223). -/
  | fpush (f : FmtM)
  /-- FPOP: lane opcode 0x65 (R223). -/
  | fpop (f : FmtM)
  /-- FPEEK: lane opcode 0x66 (R223). -/
  | fpeek (f : FmtM)
  /-- PREF: lane opcode 0x67 (R251). -/
  | pref (f : FmtM)
  /-- WAITC: lane opcode 0x68 (R224). -/
  | waitc (f : FmtL)
  /-- LDG: lane opcode 0x6C (R248). -/
  | ldg (f : FmtM)
  /-- LDGA: lane opcode 0x6D (R248). -/
  | ldga (f : FmtM)
  /-- STG: lane opcode 0x6E (R248). -/
  | stg (f : FmtM)
  /-- STGL: lane opcode 0x6F (R248). -/
  | stgl (f : FmtM)
  /-- ATG_CORE: lane opcode 0x70 (R249). -/
  | atgCore (f : FmtM)
  /-- ATG_CLUS: lane opcode 0x71 (R249). -/
  | atgClus (f : FmtM)
  /-- ATG_DIE: lane opcode 0x72 (R249). -/
  | atgDie (f : FmtM)
  /-- ATG_PKG: lane opcode 0x73 (R249). -/
  | atgPkg (f : FmtM)
  /-- ATG_SYS: lane opcode 0x74 (R249). -/
  | atgSys (f : FmtM)
  /-- REDG_DIE: lane opcode 0x75 (R250). -/
  | redgDie (f : FmtM)
  /-- REDG_PKG: lane opcode 0x76 (R250). -/
  | redgPkg (f : FmtM)
  /-- REDG_SYS: lane opcode 0x77 (R250). -/
  | redgSys (f : FmtM)
  /-- SPAWN: lane opcode 0x78 (R197). -/
  | spawn (f : Fmt3)
  /-- SPAWNT: lane opcode 0x79 (R197). -/
  | spawnt (f : Fmt3)
  /-- TAGSET: lane opcode 0x7A (R313). -/
  | tagset (f : Fmt3)
  /-- TAGV: lane opcode 0x7B (R313). -/
  | tagv (f : Fmt3)
  /-- RDLANE: lane opcode 0x7E (R132). -/
  | rdlane (f : Fmt3)
  /-- WRLANE: lane opcode 0x7F (R133). -/
  | wrlane (f : Fmt3)
  /-- BRA: uniform opcode 0x00 (R83). -/
  | bra (f : FmtB)
  /-- CALL: uniform opcode 0x01 (R83). -/
  | call (f : FmtB)
  /-- CALLI: uniform opcode 0x02 (R83). -/
  | calli (f : Fmt3)
  /-- RET: uniform opcode 0x03 (R83). -/
  | ret (f : Fmt3)
  /-- HLOOP: uniform opcode 0x04 (R84). -/
  | hloop (f : FmtI)
  /-- BRI: uniform opcode 0x05 (R83). -/
  | bri (f : Fmt3)
  /-- GANG: uniform opcode 0x06 (R94). -/
  | gang (f : Fmt3)
  /-- UMOV: uniform opcode 0x10 (R134). -/
  | umov (f : Fmt3)
  /-- ULDK: uniform opcode 0x11 (R135). -/
  | uldk (f : Fmt3) (lit0 lit1 : Word)
  /-- UADD: uniform opcode 0x12 (R134). -/
  | uadd (f : Fmt3)
  /-- USUB: uniform opcode 0x13 (R134). -/
  | usub (f : Fmt3)
  /-- UMUL: uniform opcode 0x14 (R134). -/
  | umul (f : Fmt3)
  /-- UMULH: uniform opcode 0x15 (R134). -/
  | umulh (f : Fmt3)
  /-- UMAD: uniform opcode 0x16 (R134). -/
  | umad (f : Fmt4)
  /-- UAND: uniform opcode 0x17 (R134). -/
  | uand (f : Fmt3)
  /-- UOR: uniform opcode 0x18 (R134). -/
  | uor (f : Fmt3)
  /-- UXOR: uniform opcode 0x19 (R134). -/
  | uxor (f : Fmt3)
  /-- USHL: uniform opcode 0x1A (R134). -/
  | ushl (f : Fmt3)
  /-- USHR: uniform opcode 0x1B (R134). -/
  | ushr (f : Fmt3)
  /-- USAR: uniform opcode 0x1C (R134). -/
  | usar (f : Fmt3)
  /-- UADDI: uniform opcode 0x1D (R134). -/
  | uaddi (f : FmtI)
  /-- UANDI: uniform opcode 0x1E (R134). -/
  | uandi (f : FmtI)
  /-- USHLI: uniform opcode 0x1F (R134). -/
  | ushli (f : FmtI)
  /-- USHRI: uniform opcode 0x20 (R134). -/
  | ushri (f : FmtI)
  /-- UMIN: uniform opcode 0x21 (R134). -/
  | umin (f : Fmt3)
  /-- UMAX: uniform opcode 0x22 (R134). -/
  | umax (f : Fmt3)
  /-- UPOPC: uniform opcode 0x23 (R134). -/
  | upopc (f : Fmt3)
  /-- UCLZ: uniform opcode 0x24 (R134). -/
  | uclz (f : Fmt3)
  /-- UCMP: uniform opcode 0x25 (R120). -/
  | ucmp (f : FmtP)
  /-- UPLOG: uniform opcode 0x26 (R121). -/
  | uplog (f : FmtP)
  /-- USEL: uniform opcode 0x27 (R124). -/
  | usel (f : Fmt4)
  /-- MFS: uniform opcode 0x28 (R136). -/
  | mfs (f : FmtI)
  /-- MTS: uniform opcode 0x29 (R137). -/
  | mts (f : FmtI)
  /-- JOIN: uniform opcode 0x30 (R198). -/
  | join (f : Fmt3)
  /-- FTEST: uniform opcode 0x31 (R199). -/
  | ftest (f : Fmt3)
  /-- FCANCEL: uniform opcode 0x32 (R200). -/
  | fcancel (f : Fmt3)
  /-- TEXIT: uniform opcode 0x33 (R201). -/
  | texit (f : Fmt3)
  /-- DQLEN: uniform opcode 0x34 (R202). -/
  | dqlen (f : Fmt3)
  /-- TSELF: uniform opcode 0x35 (R203). -/
  | tself (f : Fmt3)
  /-- LDU: uniform opcode 0x40 (R252). -/
  | ldu (f : FmtM)
  /-- STU: uniform opcode 0x41 (R252). -/
  | stu (f : FmtM)
  /-- ATU: uniform opcode 0x42 (R252). -/
  | atu (f : FmtM)
  /-- RWB: uniform opcode 0x43 (R253). -/
  | rwb (f : Fmt3)
  /-- RINV: uniform opcode 0x44 (R253). -/
  | rinv (f : Fmt3)
  /-- RWBI: uniform opcode 0x45 (R253). -/
  | rwbi (f : Fmt3)
  /-- FENCE: uniform opcode 0x46 (R267). -/
  | fence (f : FmtI)
  /-- XPUB: uniform opcode 0x47 (R282). -/
  | xpub (f : Fmt3)
  /-- WAITV: uniform opcode 0x48 (R269). -/
  | waitv (f : Fmt4)
  /-- QFENCE: uniform opcode 0x49 (R268). -/
  | qfence (f : FmtI)
  /-- XPROBE: uniform opcode 0x4A (R283). -/
  | xprobe (f : Fmt3)
  /-- CPY: uniform opcode 0x50 (R299). -/
  | cpy (f : Fmt4)
  /-- CPY2D: uniform opcode 0x51 (R299). -/
  | cpy2d (f : Fmt4)
  /-- COLL: uniform opcode 0x52 (R301). -/
  | coll (f : Fmt4)
  /-- EQSTAT: uniform opcode 0x53 (R304). -/
  | eqstat (f : Fmt3)
  /-- MMA: uniform opcode 0x60 (R325). -/
  | mma (f : Fmt4)
  /-- MMAT: uniform opcode 0x61 (R325). -/
  | mmat (f : Fmt4)
  /-- MPERM: uniform opcode 0x62 (R326). -/
  | mperm (f : Fmt4)
  /-- MRED: uniform opcode 0x63 (R326). -/
  | mred (f : Fmt4)
  /-- MLOAD: uniform opcode 0x64 (R328). -/
  | mload (f : Fmt3)
  /-- MSTORE: uniform opcode 0x65 (R328). -/
  | mstore (f : Fmt3)
  /-- MRES: uniform opcode 0x66 (R329). -/
  | mres (f : Fmt3)
  /-- MRESQ: uniform opcode 0x67 (R330). -/
  | mresq (f : Fmt3)
  /-- MFENCE: uniform opcode 0x68 (R332). -/
  | mfence (f : Fmt3)
  /-- MWAIT: uniform opcode 0x69 (R333). -/
  | mwait (f : FmtI)
  /-- MGRAD: uniform opcode 0x6A (R327). -/
  | mgrad (f : Fmt4)
  /-- MZERO: uniform opcode 0x6B (R331). -/
  | mzero (f : Fmt3)
  /-- TRAP: uniform opcode 0x70 (R344). -/
  | trap (f : FmtI)
  /-- ERET: uniform opcode 0x71 (R346). -/
  | eret (f : Fmt3)
  /-- SAVEC: uniform opcode 0x72 (R347). -/
  | savec (f : Fmt3)
  /-- RSTC: uniform opcode 0x73 (R350). -/
  | rstc (f : Fmt3)
  /-- SIGS: uniform opcode 0x74 (R351). -/
  | sigs (f : Fmt3)
  /-- BKPT: uniform opcode 0x75 (R345). -/
  | bkpt (f : Fmt3)
  /-- BANKSET: uniform opcode 0x76 (R225). -/
  | bankset (f : Fmt3)
  /-- BANKQ: uniform opcode 0x77 (R226). -/
  | bankq (f : Fmt3)
  /-- LVCALL: uniform opcode 0x78 (R378). -/
  | lvcall (f : Fmt3)
  /-- LVRET: uniform opcode 0x79 (R378). -/
  | lvret (f : Fmt3)
  /-- RGSET: uniform opcode 0x7A (R379). -/
  | rgset (f : Fmt3)
  /-- LOAD_RETURN (R103). -/
  | loadReturn (c w o : Nat) (lanes : LaneMask)
  /-- WRITE_PERFORMED (R220). -/
  | writePerformed (c w o : Nat) (lanes : LaneMask)
  /-- ASYNC_DELIVERY (R342). -/
  | asyncDelivery (c w : Nat)
  /-- BARRIER_PHASE_COMPLETE (R89). -/
  | barrierPhaseComplete (c g : Nat)
  /-- JOIN_RESUME (R198). -/
  | joinResume (c w : Nat) (b : Bool)
  /-- WAITV_WAKE (R269). -/
  | waitvWake (c w : Nat) (b : Bool)
  /-- RING_PERFORM (R218). -/
  | ringPerform (c r : Nat) (push : Bool)
  /-- SLOT_RELEASE (R93). -/
  | slotRelease (c w : Nat)
  /-- SLOT_RETURN (R22). -/
  | slotReturn (c l : Nat)
  /-- OWNER_POP (R186). -/
  | ownerPop (c w : Nat)
  /-- STEAL_REQUEST (R187). -/
  | stealRequest (c : Nat)
  /-- STEAL_ROTATION (R188). -/
  | stealRotation (c w : Nat)
  /-- STEAL_ANSWER (R188). -/
  | stealAnswer (c w : Nat)
  /-- CLOSURE_ARRIVAL (R185). -/
  | closureArrival (c w : Nat)
  /-- STAGE_AHEAD (R192). -/
  | stageAhead (c i : Nat)
  /-- TILE_LOAD_DONE (R190). -/
  | tileLoadDone (c a t : Nat)
  /-- TASK_START (R182). -/
  | taskStart (c w : Nat)
  /-- STORER_DONE (R193). -/
  | storerDone (c a : Nat)
  /-- LOADER_REQUEST (R305). -/
  | loaderRequest (c a t : Nat)
  /-- TENANT_SWITCH (R178). -/
  | tenantSwitch (c t : Nat)
  /-- LEASE_EXPIRY (R239). -/
  | leaseExpiry (c line : Nat)
  /-- REVOKE_PROBE (R239). -/
  | revokeProbe (c line : Nat)
  /-- COHERENCE_PROBE (R242). -/
  | coherenceProbe (d cl line : Nat)
  /-- REMOTE_WRITE_APPLY (R264). -/
  | remoteWriteApply (d src : Nat)
  /-- L2_EVICTION (R244). -/
  | l2Eviction (d line : Nat)
  /-- TYPE1_FILL (R244). -/
  | type1Fill (d line off : Nat)
  /-- HOST_SECTOR_GRANT (R245). -/
  | hostSectorGrant (line sector : Nat) (grant : Bool)
  /-- FRADON_INBOUND (R265). -/
  | fradonInbound (port pa n : Nat) (data : DWord)
  /-- ENGINE_ACCEPT (R290). -/
  | engineAccept (o : Nat)
  /-- ENGINE_CHUNK (R293). -/
  | engineChunk (o : Nat)
  /-- ENGINE_RESOLVE (R291). -/
  | engineResolve (o : Nat)
  /-- COLL_PEER_END (R303). -/
  | collPeerEnd (o : Nat)
  /-- GANG_RENDEZVOUS (R315). -/
  | gangRendezvous (c w : Nat)
  /-- MATRIX_ROW (R317). -/
  | matrixRow (c : Nat)
  /-- ARRAY_CLEAR (R309). -/
  | arrayClear (c : Nat)
  /-- PREEMPT_REQUEST (R337). -/
  | preemptRequest (c w : Nat)
  /-- MIGRATE_REQUEST (R354). -/
  | migrateRequest (c l x : Nat)
  /-- CONTEXT_RESTORE (R352). -/
  | contextRestore (i c w : Nat)
  /-- DEBUG_STOP (R355). -/
  | debugStop (c w : Nat)
  /-- DEBUG_RESUME (R355). -/
  | debugResume (c w : Nat)
  /-- DEBUG_STEP (R355). -/
  | debugStep (c w : Nat)
  /-- NOTIFY (R360). -/
  | notify (vf : Nat) (v : DWord)
  /-- WPTR_POLL (R360). -/
  | wptrPoll (q : Nat)
  /-- SKIP (R375). -/
  | skip (q : Nat)
  /-- FLUSH (R375). -/
  | flush (q : Nat)
  /-- FLUSH_DONE (R375). -/
  | flushDone (q : Nat)
  /-- PKT_NOP (R362). -/
  | pktNop (q : Nat)
  /-- LAUNCH (R365). -/
  | launch (q : Nat)
  /-- COPY (R362). -/
  | copy (q : Nat)
  /-- PKT_COLL (R362). -/
  | pktColl (q : Nat)
  /-- PKT_WAITV (R362). -/
  | pktWaitv (q : Nat)
  /-- SIGNAL (R362). -/
  | signal (q : Nat)
  /-- ANDBAR (R362). -/
  | andbar (q : Nat)
  /-- INDIRECT (R372). -/
  | indirect (q : Nat)
  /-- GRAPH_DEFINE (R373). -/
  | graphDefine (q : Nat)
  /-- GRAPH_RUN (R374). -/
  | graphRun (q : Nat)
  /-- GRAPH_NODE_START (R374). -/
  | graphNodeStart (q n : Nat)
  /-- PACKET_COMPLETION (R364). -/
  | packetCompletion (q : Nat)
  /-- WORKGROUP_PLACE (R367). -/
  | workgroupPlace (l : Nat)
  /-- LAUNCH_DEP_START (R371). -/
  | launchDepStart (q : Nat)
  /-- LAUNCH_COMPLETE (R369). -/
  | launchComplete (l : Nat)
  /-- QUEUE_CREATE (R381); `pool` is the base of the context pool and how many units it holds (log entry 26). -/
  | queueCreate (q d p vf i root : Nat) (pool : Nat × Nat) (ring size : Nat)
  /-- QUEUE_DESTROY (R381). -/
  | queueDestroy (q : Nat)
  /-- COMM_SLOT_WRITE (R381). -/
  | commSlotWrite (d p i : Nat) (members : List (Nat × Nat))
  /-- STEAL_MIN_WRITE (R189). -/
  | stealMinWrite (c : Nat) (cross : Bool) (v : DWord)
  /-- MINRES_WRITE (R354). -/
  | minresWrite (d : Nat) (v : DWord)
  /-- REGISTER_WRITE (R7). -/
  | registerWrite (lvl addr : Nat) (v : DWord)
  /-- PCTL_WRITE (R384). -/
  | pctlWrite (p : Nat) (v : DWord)
  /-- FWCTL_ENABLE (R173). -/
  | fwctlEnable (p w : Nat) (v : DWord)
  /-- FWCTL_DISABLE (R173). -/
  | fwctlDisable (p w : Nat)
  /-- ATTACH_WRITE (R398). -/
  | attachWrite (n : Nat) (v : DWord)
  /-- THERMHOT_WRITE (R405). -/
  | thermhotWrite (d : Nat) (v : DWord)
  /-- REFUSAL_LOG_CLEAR (R388). -/
  | refusalLogClear (d t : Nat)
  /-- ACCESS_REFUSAL (R388). -/
  | accessRefusal (d t mid kind pa : Nat)
  /-- SHOOTDOWN (R391). -/
  | shootdown (p : Nat) (v : DWord)
  /-- SHOOTDOWN_COMPLETE (R391). -/
  | shootdownComplete (p : Nat)
  /-- ENERGY_WINDOW (R392). -/
  | energyWindow (p : Nat)
  /-- RETIRE (R394). -/
  | retire (c : Nat)
  /-- MERGE (R395). -/
  | merge (p : Nat) (v : DWord)
  /-- SPLIT (R395). -/
  | split (p : Nat) (v : DWord)
  /-- MERGE_DRAIN_TIMEOUT (R395). -/
  | mergeDrainTimeout (p : Nat)
  /-- ATTEST_REQUEST (R403). -/
  | attestRequest (addr : DWord) (nonce : BitVec 512)
  /-- ATTEST_DONE (R403). -/
  | attestDone (ok : Bool)
  /-- POWER_GOOD (R401). -/
  | powerGood (img : FwImage) (failing : List Nat) (up : BitVec 32)
  /-- PORT_LINK_CHANGE (R397). -/
  | portLinkChange (port : Nat) (up : Bool)
  /-- POWER_LIMIT (R404). -/
  | powerLimit (on : Bool)
  /-- CORE_HOT (R405). -/
  | coreHot (c t : Nat)
  /-- CORE_COOL (R405). -/
  | coreCool (c t : Nat)
  /-- CRITICAL_RESET (R405). -/
  | criticalReset (d : Nat)
  deriving DecidableEq, Repr

end Sys2Proof
end

