-- ==== Sys2Proof/Config.lean ====
section
/-! DEFINITION. What the spec leaves open: free values, as constants with no body. Each takes a counter of the state or
the operands it depends on; nothing can be proved of the value. -/

namespace Sys2Proof

/-- Which row of the machine is performed next, and by whom (R26, R256): the agents' interleaving is not fixed. -/
inductive Turn where
  /-- A core offers an issue slot to split slot A (false) or B (true) of a warp slot; `ready` says whether the split
  has its operands and a free pipe (R26). -/
  | issue (core slot : Nat) (b ready : Bool)
  /-- A split fetches one more word ahead (R277, R281). -/
  | prefetch (core slot : Nat) (b : Bool)
  /-- Reads of an operation of a warp slot are performed in lanes of a mask; their data returns later (R240, R256). -/
  | read (core slot op : Nat) (lanes : BitVec 64)
  /-- A row of the machine's own (rows 195 to 283 of the table), with its operands. -/
  | event (i : Instr)
  deriving DecidableEq, Repr, Inhabited

namespace Config

/-- What an agent other than a load reads of a byte of an uncorrectable SRAM word, by its place and its stored bits (R215, DESIGN CHOICE,
log entry 39). -/
opaque badByte : Nat → BitVec 8 → BitVec 8
/-- The next turn (DESIGN CHOICE, log entry 2). -/
opaque turn : Nat → Turn
/-- Core cycles that pass at a step (R16, DESIGN CHOICE, log entry 10). -/
opaque ticks : Nat → Nat
/-- How far a die's time base stands from the package's, at most 64 cycles (R16, DESIGN CHOICE, log entry 10). -/
opaque dieSkew : Nat → Nat
/-- Energy drawn by a meter at a step, in µJ (R392, DESIGN CHOICE, log entry 11). -/
opaque energy : Nat → Nat → Nat
/-- Whether a held translation is still held when an access could use it (R234, DESIGN CHOICE, log entry 12). -/
opaque tlbHeld : Nat → Bool
/-- A dot product accumulated in an unstated order: the format code and the exact terms (R176, DESIGN CHOICE, log entry 13). -/
opaque dotSum : Nat → List (Bool × Nat × Int) → BitVec 32
/-- FRSQ within its bound (R160, DESIGN CHOICE, log entry 14). -/
opaque frsq : BitVec 32 → BitVec 32
/-- FEXP2 within its bound (R160, DESIGN CHOICE, log entry 14). -/
opaque fexp2 : BitVec 32 → BitVec 32
/-- FLOG2 within its bound (R160, DESIGN CHOICE, log entry 14). -/
opaque flog2 : BitVec 32 → BitVec 32
/-- FSIN within its bound (R160, DESIGN CHOICE, log entry 14). -/
opaque fsin : BitVec 32 → BitVec 32
/-- FCOS within its bound (R160, DESIGN CHOICE, log entry 14). -/
opaque fcos : BitVec 32 → BitVec 32
/-- FTANH within its bound (R160, DESIGN CHOICE, log entry 14). -/
opaque ftanh : BitVec 32 → BitVec 32
/-- The fixed hash that chooses among slices: the slices owned and the line number (R230, R244, DESIGN CHOICE, log entry 16). -/
opaque homeHash : List Nat → Nat → Nat
/-- Which entry a full publish table evicts (R280, DESIGN CHOICE, log entry 17). -/
opaque pubEvict : Nat → Nat
/-- The fused identity key of a die: its modulus, but for the top bit, and its private exponent (R403, PRESUMED, log entry 18). -/
opaque identity : Nat → Nat × Nat
/-- The salt of a signature (R400, PRESUMED, log entry 18). -/
opaque salt : Nat → BitVec 512
/-- The module's serial number (R403, PRESUMED, log entry 18). -/
opaque serial : BitVec 128
/-- The lines that the firmware image takes, from its load address on (R400, DESIGN CHOICE, log entry 3). -/
opaque imageLines : Nat
/-- The digest of the root key that is fused in a die (R400, PRESUMED, log entry 18). -/
opaque rootDigest : Nat → BitVec 512
/-- The minimum security version that is fused in a die (R400, PRESUMED, log entry 18). -/
opaque minVersion : Nat → Nat
/-- The security version of the running image (R403, PRESUMED, log entry 18). -/
opaque fwsvn : BitVec 32
/-- SHA-512 of the running image (R403, PRESUMED, log entry 18). -/
opaque fwmeas : BitVec 512
/-- The element format whose exponent range a scale form of MXQ assumes, by its destination code, as a number (R168, DESIGN CHOICE,
log entry 23). -/
opaque scaleFormat : Nat → Nat
/-- What a firmware core reads from a special register that describes a launch or a warp of lanes (R138, DESIGN CHOICE, log entry 24). -/
opaque fwSpecial : Nat → BitVec 64
/-- What a firmware core reads as the state of a unit that it lacks: the opcode and a count (R202, R203, R226, R304, DEDUCED, log
entry 32). -/
opaque fwSnapshot : Nat → Nat → BitVec 64
/-- What a reduction or scan leaves in an enabled half of a lane that is not active: the place and what the places contribute
(R129, R130, DESIGN CHOICE, log entry 31). -/
opaque idleHalf : Nat → List (BitVec 32) → BitVec 32
/-- Which frame of a warp leaves the chip first (R82, DESIGN CHOICE, log entry 77). -/
opaque frameOut : Nat → Nat
/-- A free choice between two allowed outcomes (DESIGN CHOICE, log entry 19). -/
opaque choice : Nat → Bool

end Config

end Sys2Proof
end

