-- ==== Sys2Proof/Machine/Bits.lean ====
section
/-! DEFINITION. Bit fields of numbers, used to read and to build words (R4, R34). -/

namespace Sys2Proof

/-- Bits [lo + len − 1 : lo] of a number, as a bit vector. -/
def field (len lo w : Nat) : BitVec len := BitVec.ofNat len (w / 2 ^ lo)

/-- Bit i of a number. -/
def flag (i w : Nat) : Bool := w / 2 ^ i % 2 == 1

/-- Bits [lo + len − 1 : lo] of a number. -/
def bitsOf (len lo w : Nat) : Nat := w / 2 ^ lo % 2 ^ len

/-- A bit as a number. -/
def bit (b : Bool) : Nat := if b then 1 else 0

/-- A signed number of w bits, from its two's-complement pattern (R4). -/
def signed (w n : Nat) : Int := if n % 2 ^ w < 2 ^ (w - 1) then (n % 2 ^ w : Nat) else (n % 2 ^ w : Nat) - (2 ^ w : Nat)

/-- The pattern of w bits that an integer wraps to (R4). -/
def wrap (w : Nat) (i : Int) : Nat := (i % (2 ^ w : Nat)).toNat

/-- The n bytes of a number, the least significant first (R5). -/
def toBytes : Nat → Nat → List Byte
  | 0, _ => []
  | n + 1, w => BitVec.ofNat 8 w :: toBytes n (w / 256)

/-- The number whose bytes are given, the least significant first (R5). -/
def ofBytes : List Byte → Nat
  | [] => 0
  | b :: r => b.toNat + 256 * ofBytes r

/-- The members of a list with their places. -/
def indexed {α : Type} (l : List α) : List (Nat × α) := (List.range l.length).zip l

end Sys2Proof
end

