-- ==== Sys2Proof/Machine/Float.lean ====
section
/-! DEFINITION. Number formats (R141 to R146), rounding (R147, R148), special values and flags (R150 to R153), and the exact
operations that the pipes round once. Every value is an exact dyadic number: a sign, a natural number and a power of 2. -/

namespace Sys2Proof.Machine

open Sys2Proof

/-- A floating format (Table 1 of R141): fraction bits, bias, all bits, whether it has infinities and whether it has NaNs, and
the pattern of its largest finite value. -/
structure FloatFmt where
  frac : Nat
  bias : Nat
  bits : Nat
  hasInf : Bool
  hasNan : Bool
  top : Nat
  deriving DecidableEq, Repr

/-- The formats by their codes 0 to 7 (R45, R141). -/
def floatFmt (c : Nat) : FloatFmt :=
  if c = 0 then { frac := 23, bias := 127, bits := 32, hasInf := true, hasNan := true, top := 0x7F7FFFFF }
  else if c = 1 then { frac := 7, bias := 127, bits := 16, hasInf := true, hasNan := true, top := 0x7F7F }
  else if c = 2 then { frac := 10, bias := 15, bits := 16, hasInf := true, hasNan := true, top := 0x7BFF }
  else if c = 3 then { frac := 3, bias := 7, bits := 8, hasInf := false, hasNan := true, top := 0x7E }
  else if c = 4 then { frac := 2, bias := 15, bits := 8, hasInf := true, hasNan := true, top := 0x7B }
  else if c = 5 then { frac := 2, bias := 3, bits := 6, hasInf := false, hasNan := false, top := 0x1F }
  else if c = 6 then { frac := 3, bias := 1, bits := 6, hasInf := false, hasNan := false, top := 0x1F }
  else { frac := 1, bias := 1, bits := 4, hasInf := false, hasNan := false, top := 0x7 }

/-- A value: a NaN (signalling, negative), an infinity, or (−1)^neg × m × 2^e. -/
inductive Num where
  | nan (sig neg : Bool)
  | inf (neg : Bool)
  | fin (neg : Bool) (m : Nat) (e : Int)
  deriving DecidableEq, Repr

/-- The value of a pattern (R141). -/
def FloatFmt.unpack (f : FloatFmt) (w : Nat) : Num :=
  let w := w % 2 ^ f.bits
  let neg := flag (f.bits - 1) w
  let mag := w % 2 ^ (f.bits - 1)
  let ex := mag / 2 ^ f.frac
  let fr := mag % 2 ^ f.frac
  if f.top < mag then
    if f.hasInf && fr == 0 then .inf neg
    else .nan (4 < f.bits && 8 < f.bits && fr / 2 ^ (f.frac - 1) == 0) neg
  else if ex = 0 then .fin neg fr (1 - (f.bias : Int) - f.frac)
  else .fin neg (fr + 2 ^ f.frac) ((ex : Int) - f.bias - f.frac)

/-- Rounding modes by their codes (Table 3 of R147). -/
inductive Rnd where
  | rne
  | rtz
  | rup
  | rdn
  | rna
  | odd
  | sr
  deriving DecidableEq, Repr

/-- The mode of a code; a reserved code never stands in FPC (R46). -/
def rndOf (c : Nat) : Rnd :=
  if c = 1 then .rtz else if c = 2 then .rup else if c = 3 then .rdn else if c = 4 then .rna else if c = 5 then .odd
  else if c = 6 then .sr else .rne

/-- Flags as FPC [7:3] holds them (R154). -/
def fINV : Nat := 16
/-- DIVZERO. -/
def fDIVZ : Nat := 8
/-- OVERFLOW. -/
def fOVF : Nat := 4
/-- UNDERFLOW. -/
def fUNF : Nat := 2
/-- INEXACT. -/
def fINX : Nat := 1

/-- A result: its pattern and the flags it sets. -/
structure Flo where
  bits : Nat
  flags : Nat
  deriving DecidableEq, Repr

/-- The next stochastic-rounding state (R148). -/
def srNext (g : Word) : Word :=
  let g := g ^^^ (g <<< 13)
  let g := g ^^^ (g >>> 17)
  g ^^^ (g <<< 5)

/-- m × 2^e as a count of units of 2^q: the whole units, and the rest over a power of two. -/
def units (m : Nat) (e q : Int) : Nat × Nat × Nat :=
  if q ≤ e then (m * 2 ^ (e - q).toNat, 0, 1)
  else (m / 2 ^ (q - e).toNat, m % 2 ^ (q - e).toNat, 2 ^ (q - e).toNat)

/-- Whole units after rounding a remainder `rem / den` by a mode (R147, R148). -/
def roundUnits (r : Rnd) (g : Word) (neg : Bool) (n rem den : Nat) : Nat :=
  if rem = 0 then n
  else
    match r with
    | .rne => if den < 2 * rem ∨ (2 * rem = den ∧ n % 2 = 1) then n + 1 else n
    | .rtz => n
    | .rup => if neg then n else n + 1
    | .rdn => if neg then n + 1 else n
    | .rna => if den ≤ 2 * rem then n + 1 else n
    | .odd => if n % 2 = 1 then n else n + 1
    | .sr => if 2 ^ 32 ≤ rem * 2 ^ 32 / den + g.toNat then n + 1 else n

/-- A pattern with its sign. -/
def FloatFmt.signed (f : FloatFmt) (neg : Bool) (mag : Nat) : Nat := mag + bit neg * 2 ^ (f.bits - 1)

/-- The pattern of an infinity; formats with one hold it just above the largest finite value. -/
def FloatFmt.infPat (f : FloatFmt) (neg : Bool) : Nat := f.signed neg (f.top + 1)

/-- The canonical NaN of a format (R150); `neg` says whether the source was negative. -/
def FloatFmt.nanPat (f : FloatFmt) (neg : Bool) : Nat :=
  if f.bits = 8 then f.signed neg 0x7F else f.top + 1 + 2 ^ (f.frac - 1)

/-- A NaN result (R150). -/
def FloatFmt.nan (f : FloatFmt) (sig neg : Bool) : Flo :=
  if f.hasNan then { bits := f.nanPat neg, flags := if sig then fINV else 0 } else { bits := 0, flags := fINV }

/-- An infinite value narrowed (R151). -/
def FloatFmt.inf (f : FloatFmt) (sat neg : Bool) : Flo :=
  if sat then { bits := f.signed neg f.top, flags := 0 }
  else if f.hasInf then { bits := f.infPat neg, flags := 0 }
  else if f.hasNan then { bits := f.nanPat neg, flags := 0 }
  else { bits := f.signed neg f.top, flags := fOVF }

/-- A finite overflow (R152). -/
def FloatFmt.overflow (f : FloatFmt) (r : Rnd) (sat neg : Bool) : Flo :=
  let big := f.signed neg f.top
  let p :=
    if sat then big
    else if f.hasInf then
      (match r with
       | .rtz => big
       | .odd => big
       | .rup => if neg then big else f.infPat neg
       | .rdn => if neg then f.infPat neg else big
       | _ => f.infPat neg)
    else (f.inf false neg).bits
  { bits := p, flags := fOVF + fINX }

/-- Whether a non-zero exact result is tiny (R153). -/
def FloatFmt.tiny (f : FloatFmt) (r : Rnd) (g : Word) (neg : Bool) (m : Nat) (e : Int) : Bool :=
  let emin : Int := 1 - f.bias
  let below (n : Nat) (q : Int) : Bool := (n.log2 : Int) + q < emin
  match r with
  | .odd => below m e
  | .sr => below m e
  | _ =>
    let q := (m.log2 : Int) + e - f.frac
    let u := units m e q
    below (roundUnits r g neg u.1 u.2.1 u.2.2) q

/-- An exact non-zero finite value rounded into a format (R147, R152, R153). -/
def FloatFmt.round (f : FloatFmt) (r : Rnd) (g : Word) (sat neg : Bool) (m : Nat) (e : Int) : Flo :=
  if m = 0 then { bits := f.signed neg 0, flags := 0 }
  else
    let q0 : Int := 1 - (f.bias : Int) - f.frac
    let q := max ((m.log2 : Int) + e - f.frac) q0
    let u := units m e q
    let n := roundUnits r g neg u.1 u.2.1 u.2.2
    let mag := (q - q0).toNat * 2 ^ f.frac + n
    let inexact := u.2.1 != 0
    if f.top < mag then f.overflow r sat neg
    else { bits := f.signed neg mag,
           flags := if inexact then fINX + (if f.tiny r g neg m e then fUNF else 0) else 0 }

/-- A value converted into a format (R150 to R153, R161). -/
def FloatFmt.convert (f : FloatFmt) (r : Rnd) (g : Word) (sat : Bool) : Num → Flo
  | .nan sig neg => f.nan sig neg
  | .inf neg => f.inf sat neg
  | .fin neg m e => f.round r g sat neg m e

/-- An invalid operation: the canonical NaN with INVALID (R150). -/
def FloatFmt.invalid (f : FloatFmt) : Flo := { bits := f.nanPat false, flags := fINV }

/-- Whether a value is a signalling NaN. -/
def Num.isSig : Num → Bool
  | .nan s _ => s
  | _ => false

/-- Whether a value is a NaN. -/
def Num.isNan : Num → Bool
  | .nan _ _ => true
  | _ => false

/-- The sign of a value. -/
def Num.neg : Num → Bool
  | .nan _ n => n
  | .inf n => n
  | .fin n _ _ => n

/-- A value with its sign changed. -/
def Num.flip : Num → Num
  | .nan s n => .nan s !n
  | .inf n => .inf !n
  | .fin n m e => .fin (!n) m e

/-- A signed integer over a power of two: sign, magnitude and exponent of a sum of two such terms. -/
def addExact (n1 : Bool) (m1 : Nat) (e1 : Int) (n2 : Bool) (m2 : Nat) (e2 : Int) : Int × Int :=
  let e := min e1 e2
  let a : Int := m1 * 2 ^ (e1 - e).toNat
  let b : Int := m2 * 2 ^ (e2 - e).toNat
  ((if n1 then -a else a) + (if n2 then -b else b), e)

/-- The sum of two finite terms rounded once; an exact zero takes its sign by R153. -/
def FloatFmt.sum (f : FloatFmt) (r : Rnd) (g : Word) (n1 : Bool) (m1 : Nat) (e1 : Int) (n2 : Bool) (m2 : Nat) (e2 : Int) :
    Flo :=
  let s := addExact n1 m1 e1 n2 m2 e2
  if s.1 = 0 then
    { bits := f.signed (if m1 = 0 ∧ m2 = 0 ∧ n1 = n2 then n1 else r == .rdn) 0, flags := 0 }
  else f.round r g false (s.1 < 0) s.1.natAbs s.2

/-- The product of two values, exact; none for an invalid product (R150). -/
def mulNum : Num → Num → Option Num
  | .nan s n, _ => some (.nan s n)
  | _, .nan s n => some (.nan s n)
  | .inf a, .inf b => some (.inf (a != b))
  | .inf a, .fin b m _ => if m = 0 then none else some (.inf (a != b))
  | .fin a m _, .inf b => if m = 0 then none else some (.inf (a != b))
  | .fin a m e, .fin b n h => some (.fin (a != b) (m * n) (e + h))

/-- a + b rounded once (R157, R158). -/
def FloatFmt.add (f : FloatFmt) (r : Rnd) (g : Word) (a b : Num) : Flo :=
  let sig := a.isSig || b.isSig
  match a, b with
  | .nan _ _, _ => f.nan sig false
  | _, .nan _ _ => f.nan sig false
  | .inf x, .inf y => if x = y then { bits := f.infPat x, flags := 0 } else f.invalid
  | .inf x, _ => { bits := f.infPat x, flags := 0 }
  | _, .inf y => { bits := f.infPat y, flags := 0 }
  | .fin x m e, .fin y n h => f.sum r g x m e y n h

/-- a × b rounded once (R157, R158). -/
def FloatFmt.mul (f : FloatFmt) (r : Rnd) (g : Word) (a b : Num) : Flo :=
  match mulNum a b with
  | none => f.invalid
  | some (.nan _ _) => f.nan (a.isSig || b.isSig) false
  | some (.inf x) => { bits := f.infPat x, flags := 0 }
  | some (.fin x m e) => if m = 0 then { bits := f.signed x 0, flags := 0 } else f.round r g false x m e

/-- a × b + c rounded once; 0 × ∞ is invalid even with a quiet NaN addend (R150, R157). -/
def FloatFmt.fma (f : FloatFmt) (r : Rnd) (g : Word) (a b c : Num) : Flo :=
  let sig := a.isSig || b.isSig || c.isSig
  match mulNum a b with
  | none => f.invalid
  | some (.nan _ _) => f.nan sig false
  | some p => if c.isNan then f.nan sig false else f.add r g p c

/-- Whether a is less than b, both numbers; −0 equals +0 (R119). -/
def ltNum (a b : Num) : Bool :=
  match a, b with
  | .inf x, .inf y => x && !y
  | .inf x, _ => x
  | _, .inf y => !y
  | .fin x m e, .fin y n h => (addExact x m e (!y) n h).1 < 0
  | _, _ => false

/-- FMIN and FMAX on patterns (R159): an operand bit for bit, a NaN losing to a number, −0 below +0. -/
def FloatFmt.minMax (f : FloatFmt) (isMax : Bool) (a b : Nat) : Flo :=
  let x := f.unpack a
  let y := f.unpack b
  let fl := if x.isSig || y.isSig then fINV else 0
  let less : Bool := ltNum x y || (!ltNum y x && x.neg && !y.neg)
  let p :=
    if x.isNan then (if y.isNan then f.nanPat false else b)
    else if y.isNan then a
    else if isMax then (if less then b else a)
    else if less then a else if ltNum y x || (y.neg && !x.neg) then b else a
  { bits := p, flags := fl }

/-- The integer square root, found bit by bit from bit k downward. -/
def isqrt (n : Nat) : Nat → Nat → Nat
  | 0, r => r
  | k + 1, r => isqrt n k (if (r + 2 ^ k) * (r + 2 ^ k) ≤ n then r + 2 ^ k else r)

/-- 1 ÷ a, correctly rounded (R160): the quotient has 96 bits and a last bit that says whether more follow. -/
def FloatFmt.recip (f : FloatFmt) (r : Rnd) (g : Word) (a : Num) : Flo :=
  match a with
  | .nan s _ => f.nan s false
  | .inf n => { bits := f.signed n 0, flags := 0 }
  | .fin n m e =>
    if m = 0 then { bits := f.infPat n, flags := fDIVZ }
    else
      let k := 96 + m.log2
      f.round r g false n (2 * (2 ^ k / m) + (if 2 ^ k % m = 0 then 0 else 1)) (-(k : Int) - 1 - e)

/-- The root of m × 2^e with 80 or more bits and a last bit that says whether more follow: magnitude and exponent. -/
def sqrtExact (m : Nat) (e : Int) : Nat × Int :=
  let odd := e % 2 != 0
  let n := (if odd then 2 * m else m) * 2 ^ 160
  let e2 : Int := (if odd then e - 1 else e) - 160
  let s := isqrt n (n.log2 / 2 + 1) 0
  (2 * s + (if s * s = n then 0 else 1), e2 / 2 - 1)

/-- √a, correctly rounded (R160). -/
def FloatFmt.sqrt (f : FloatFmt) (r : Rnd) (g : Word) (a : Num) : Flo :=
  match a with
  | .nan s _ => f.nan s false
  | .inf n => if n then f.invalid else { bits := f.infPat false, flags := 0 }
  | .fin n m e =>
    if m = 0 then { bits := f.signed n 0, flags := 0 }
    else if n then f.invalid
    else let q := sqrtExact m e; f.round r g false false q.1 q.2

/-- F32. -/
def F32 : FloatFmt := floatFmt 0
/-- BF16. -/
def BF16 : FloatFmt := floatFmt 1
/-- F16. -/
def F16 : FloatFmt := floatFmt 2

/-- Whether a positive pattern y of F32 lies within one unit in its last place of 1 ÷ √(m × 2^e) (R160): compared through
(y ± u)² × a against 1. -/
def frsqClose (y m : Nat) (e : Int) : Bool :=
  match F32.unpack y with
  | .fin false n h =>
    let side (k : Nat) : Nat × Int := (k * k * m, 2 * h + e)
    let le1 (v : Nat × Int) : Bool := if 0 ≤ v.2 then v.1 * 2 ^ v.2.toNat ≤ 1 else v.1 ≤ 2 ^ (-v.2).toNat
    let ge1 (v : Nat × Int) : Bool := if 0 ≤ v.2 then 1 ≤ v.1 * 2 ^ v.2.toNat else 2 ^ (-v.2).toNat ≤ v.1
    n != 0 && le1 (side (n - 1)) && ge1 (side (n + 1))
  | _ => false

/-- 1 ÷ √a within one unit in the last place: the free value where it meets the bound, else the nearest (R160). -/
def frsqOf (a : Nat) : Flo :=
  match F32.unpack a with
  | .nan s _ => F32.nan s false
  | .inf n => if n then F32.invalid else { bits := 0, flags := 0 }
  | .fin n m e =>
    if m = 0 then { bits := F32.infPat n, flags := fDIVZ }
    else if n then F32.invalid
    else
      let y := (Config.frsq (BitVec.ofNat 32 a)).toNat
      if frsqClose y m e then { bits := y, flags := 0 }
      else
        let q := sqrtExact m e
        let k := 96 + q.1.log2
        { bits := (F32.round .rne 0 false false (2 * (2 ^ k / q.1) + 1) (-(k : Int) - 1 - q.2)).bits, flags := 0 }

/-- The integer a value equals, if it is one. -/
def Num.toInt? : Num → Option Int
  | .fin n m e =>
    if 0 ≤ e then (let v : Int := m * 2 ^ e.toNat; some (if n then -v else v))
    else if m % 2 ^ (-e).toNat = 0 then (let v : Int := (m / 2 ^ (-e).toNat : Nat); some (if n then -v else v))
    else none
  | _ => none

/-! ### The bounds of Table 8 (R160)

Reals are held as integers: a fixed-point number counts units of 2⁻⁶⁴, and what a bound is checked against counts units of 2⁻²⁵⁶, of
which every F32 value is a multiple. The series are cut where their rest is below 2⁻⁶⁰, and each bound is widened by 2⁻⁴⁰ of itself
or of 1, so that every value within the bound is allowed. -/

/-- π in fixed point. -/
def fixPi : Nat := 0x3243F6A8885A308D3
/-- ln 2 in fixed point. -/
def fixLn2 : Nat := 0xB17217F7D1CF79AB

/-- A product in fixed point. -/
def fixMul (a b : Nat) : Nat := a * b / 2 ^ 64

/-- Σ x^i ÷ i! from a term on, as many terms as the fuel. -/
def fixExpFrom (x : Nat) : Nat → Nat → Nat → Nat
  | 0, _, _ => 0
  | k + 1, i, t => t + fixExpFrom x k (i + 1) (fixMul t x / (i + 1))

/-- e^x for x below 1. -/
def fixExp (x : Nat) : Nat := fixExpFrom x 24 0 (2 ^ 64)

/-- The sine series in x² from a term on. -/
def fixSinFrom (xx : Nat) : Nat → Nat → Nat → Int
  | 0, _, _ => 0
  | k + 1, i, t => t - fixSinFrom xx k (i + 2) (fixMul t xx / ((i + 1) * (i + 2)))

/-- sin(π × t) for t below 2. -/
def fixSinPi (t : Nat) : Int :=
  let r := t % 2 ^ 64
  let x := fixMul fixPi (if r ≤ 2 ^ 63 then r else 2 ^ 64 - r)
  let v := fixSinFrom (fixMul x x) 15 1 x
  if t < 2 ^ 64 then v else -v

/-- Σ z^i ÷ i over odd i from a power of z on. -/
def fixAtanhFrom (zz : Nat) : Nat → Nat → Nat → Nat
  | 0, _, _ => 0
  | k + 1, i, t => t / i + fixAtanhFrom zz k (i + 2) (fixMul t zz)

/-- log₂ y for y from 1 to 2. -/
def fixLog2 (y : Nat) : Nat :=
  let z := (y - 2 ^ 64) * 2 ^ 64 / (y + 2 ^ 64)
  2 * fixAtanhFrom (fixMul z z) 24 1 z * 2 ^ 64 / fixLn2

/-- m × 2^e in fixed point, rounded towards −∞. -/
def toFix (neg : Bool) (m : Nat) (e : Int) : Int :=
  let s : Int := if neg then -m else m
  if 0 ≤ e + 64 then s * 2 ^ (e + 64).toNat else Int.fdiv s (2 ^ (-(e + 64)).toNat)

/-- Whether an F32 pattern lies within a bound of an exact value, both in units of 2⁻²⁵⁶. -/
def f32Close (y : Nat) (v : Int) (bound : Nat) : Bool :=
  match F32.unpack y with
  | .fin n m e => decide (((if n then -1 else 1) * (m * 2 ^ (e + 256).toNat : Nat) - v).natAbs ≤ bound)
  | _ => false

/-- The free value where it meets the bound, else the value that is nearest. -/
def approx (free : BitVec 32) (v : Int) (bound : Nat) : Flo :=
  { bits := if f32Close free.toNat v bound then free.toNat else (F32.round .rne 0 false (v < 0) v.natAbs (-256)).bits, flags := 0 }

/-- A bound of k units in the last place of an exact value that is not 0. -/
def ulps (k : Nat) (v : Int) : Nat :=
  let b := max (v.natAbs.log2 : Int) 130 - 23
  k * 2 ^ b.toNat + 2 ^ (b - 40).toNat

/-- An absolute bound of 2^(−n). -/
def absBound (n : Nat) : Nat := 2 ^ (256 - n) + 2 ^ 216

/-- 2^a within its bound, for an a that is not +∞, not a NaN and below 128. -/
def exp2Near (a : Nat) (n : Bool) (m : Nat) (e : Int) : Flo :=
  let x := if ltNum (.fin n m e) (.fin true 170 0) then -(170 * 2 ^ 64) else toFix n m e
  let i := Int.fdiv x (2 ^ 64)
  let v : Int := if i < -169 then 0 else fixExp (fixMul fixLn2 (Int.fmod x (2 ^ 64)).toNat) * 2 ^ (i + 192).toNat
  approx (Config.fexp2 (BitVec.ofNat 32 a)) v (ulps 2 v)

/-- 2^a (R160). -/
def fexp2Of (a : Nat) : Flo :=
  let x := F32.unpack a
  match x with
  | .nan s _ => F32.nan s false
  | .inf n => if n then { bits := 0, flags := 0 } else { bits := F32.infPat false, flags := 0 }
  | .fin n m e =>
    match x.toInt? with
    | some i =>
      if 128 ≤ i then { bits := F32.infPat false, flags := fOVF }
      else if -149 ≤ i then { bits := (F32.round .rne 0 false false 1 i).bits, flags := 0 }
      else exp2Near a n m e
    | none => if !n && ltNum (.fin false 128 0) x then { bits := F32.infPat false, flags := fOVF } else exp2Near a n m e

/-- log₂ a (R160). -/
def flog2Of (a : Nat) : Flo :=
  match F32.unpack a with
  | .nan s _ => F32.nan s false
  | .inf n => if n then F32.invalid else { bits := F32.infPat false, flags := 0 }
  | .fin n m e =>
    let i : Int := m.log2 + e
    if m = 0 then { bits := F32.infPat true, flags := fDIVZ }
    else if n then F32.invalid
    else if m = 2 ^ m.log2 then { bits := (F32.round .rne 0 false (i < 0) i.natAbs 0).bits, flags := 0 }
    else
      let v := (i * 2 ^ 64 + fixLog2 (m * 2 ^ 64 / 2 ^ m.log2)) * 2 ^ 192
      approx (Config.flog2 (BitVec.ofNat 32 a)) v (if i = 0 ∨ i = -1 then absBound 22 else ulps 2 v)

/-- sin(π × a) (R160). -/
def fsinOf (a : Nat) : Flo :=
  let x := F32.unpack a
  match x with
  | .nan s _ => F32.nan s false
  | .inf _ => F32.invalid
  | .fin n m e =>
    if x.toInt?.isSome then { bits := F32.signed n 0, flags := 0 }
    else approx (Config.fsin (BitVec.ofNat 32 a)) (fixSinPi (Int.fmod (toFix n m e) (2 ^ 65)).toNat * 2 ^ 192) (absBound 22)

/-- cos(π × a) (R160). -/
def fcosOf (a : Nat) : Flo :=
  match F32.unpack a with
  | .nan s _ => F32.nan s false
  | .inf _ => F32.invalid
  | .fin n m e =>
    let near := approx (Config.fcos (BitVec.ofNat 32 a)) (fixSinPi (Int.fmod (toFix n m e + 2 ^ 63) (2 ^ 65)).toNat * 2 ^ 192) (absBound 22)
    match (Num.fin false m (e + 1)).toInt? with
    | some i => if i % 2 = 1 then { bits := 0, flags := 0 } else near
    | none => near

/-- tanh |a| in fixed point. -/
def fixTanh (m : Nat) (e : Int) : Nat :=
  if ltNum (.fin false 16 0) (.fin false m e) then 2 ^ 64
  else
    let x := 2 * (toFix false m e).toNat
    let w := 2 ^ 128 / (fixExp (x % fixLn2) * 2 ^ (x / fixLn2))
    (2 ^ 64 - w) * 2 ^ 64 / (2 ^ 64 + w)

/-- tanh a (R160). Two units in the last place of a value below 1 are at most 2⁻²³. -/
def ftanhOf (a : Nat) : Flo :=
  match F32.unpack a with
  | .nan s _ => F32.nan s false
  | .inf n => { bits := F32.signed n 0x3F800000, flags := 0 }
  | .fin n m e =>
    if m = 0 then { bits := F32.signed n 0, flags := 0 }
    else approx (Config.ftanh (BitVec.ofNat 32 a)) ((if n then -1 else 1) * fixTanh m e * 2 ^ 192) (absBound 23)

/-! ### Sums of products (R176, R302, R312) -/

/-- An exact term: sign, magnitude, exponent. -/
abbrev Term := Bool × Nat × Int

/-- The exact sum of terms: a signed integer over a power of two. -/
def sumTerms (l : List Term) : Int × Int :=
  l.foldl (fun a t => addExact (a.1 < 0) a.1.natAbs a.2 t.1 t.2.1 t.2.2) (0, 0)

/-- ⌈log₂ K⌉. -/
def ceilLog2 (k : Nat) : Nat := if k ≤ 1 then 0 else (k - 1).log2 + 1

/-- Whether an F32 pattern lies within the bound of R176 of the sum of K terms: (⌈log₂ K⌉ + 2) × 2⁻²⁴ × Σ|term|, with half a
unit in the last place for the final rounding. -/
def withinBound (k y : Nat) (l : List Term) : Bool :=
  match F32.unpack y with
  | .fin n m e =>
    let s := sumTerms l
    let d := addExact n m e (0 < s.1) s.1.natAbs s.2
    let t := sumTerms (l.map fun t => (false, t.2))
    let b := addExact false ((ceilLog2 k + 2) * t.1.natAbs) (t.2 - 24) false 1 (e - 1)
    (addExact false d.1.natAbs d.2 true b.1.natAbs b.2).1 ≤ 0
  | _ => false

/-- The F32 accumulation of K exact terms in an order the spec does not state (R176): exactly the one non-zero term, or the
signed zero of R312; otherwise the free value where it meets the bound, else the nearest. -/
def dotValue (fmt k : Nat) (l : List Term) : Nat :=
  match l.filter fun t => t.2.1 != 0 with
  | [] => F32.signed (!l.isEmpty && l.all (·.1)) 0
  | [t] => (F32.round .rne 0 false t.1 t.2.1 t.2.2).bits
  | _ =>
    let y := (Config.dotSum fmt l).toNat
    let s := sumTerms l
    if fmt != 8 && withinBound k y l then y
    else if s.1 = 0 then 0 else (F32.round .rne 0 false (s.1 < 0) s.1.natAbs s.2).bits

end Sys2Proof.Machine
end

