-- ==== Sys2Proof/Machine/State.lean ====
section
/-! DEFINITION. The state of the machine as plain data: everything the spec names, in records that follow its
chapters, the faults and refusals, and the state after reset. Counts, indexes and addresses are numbers; what the
spec treats as bits is a bit vector. Tables that hold few of many places are lists of a key and an entry. -/

namespace Sys2Proof.Machine

open Sys2Proof

/-! ### Values with their marks (R97, R103, R215, R254) -/

/-- The return that will fill a pending entry: the operation in flight, the word of its data, and the bytes filled. -/
structure Pend where
  op : Nat
  word : Nat
  bytes : BitVec 4
  deriving DecidableEq, Repr

/-- A lane's register value with its pending mark (R103) and its poison mark, which carries a cause (R215, R254; 0x381 where
its residue does not fit it, R113). -/
structure Cell32 where
  v : Word
  pend : Option Pend
  poison : Option (BitVec 10)
  deriving DecidableEq, Repr

/-- A uniform register value with its pending mark and its poison mark. -/
structure Cell64 where
  v : DWord
  pend : Option (Nat × Nat)
  poison : Option (BitVec 10)
  deriving DecidableEq, Repr

/-- A plain lane value. -/
def Cell32.of (v : Word) : Cell32 := { v := v, pend := none, poison := none }

/-- A plain uniform value. -/
def Cell64.of (v : DWord) : Cell64 := { v := v, pend := none, poison := none }

/-- A lane latch of a split: its valid bit and one value per lane (R105). -/
structure LatchL where
  valid : Bool
  cells : List Cell32
  deriving DecidableEq, Repr

/-- A uniform latch of a split (R105). -/
structure LatchM where
  valid : Bool
  cell : Cell64
  deriving DecidableEq, Repr

/-- One lane of a warp slot: q0–q15, v0–v31, p0–p6, the nesting counter, seltag and the stochastic state (R97, R69, R148). -/
structure Lane where
  q : List Cell32
  v : List Cell32
  p : List (BitVec 4)
  n : BitVec 8
  tag : BitVec 8
  sr : Word
  deriving DecidableEq, Repr

/-! ### Control state of a warp slot (R69) -/

/-- What a split is blocked on (R28). -/
inductive Wait where
  /-- Not blocked. -/
  | none
  /-- JOIN on a future that is not final: its word, its handle and the order in which the JOINs issued (R198). -/
  | join (f : Fmt3) (handle : DWord) (order : Nat)
  /-- BAR, held until every live split of the warp stands at it: the image group (R90). -/
  | bar (group : Nat)
  /-- BAR or BARW: image group and the phase waited for (R90). -/
  | phase (group phase : Nat)
  /-- REDX.grp: image group, phase and the word that waits for the total (R131). -/
  | redx (group phase : Nat)
  /-- WAITV at a line: how many writes had been performed at its home (R269). -/
  | waitv (line writes : Nat)
  /-- WAITC, until the counter of a path is at most a threshold (R224). -/
  | waitc (path t : Nat)
  /-- MWAIT, until a batch is complete; 17 for every batch (R333). -/
  | mwait (n : Nat)
  /-- BARW, until the phase that a group was armed for has completed (R90). -/
  | barw (group : Nat)
  /-- No longer blocked at a word that it issued, which it issues again. -/
  | again
  /-- Held at a word that waits: operations numbered below n were issued before it; pos is 1 for a SAVEC that has written its context
  (R347). -/
  | hold (n pos : Nat)
  /-- Held at a FENCE (R267): operations numbered below n were issued before it, and those issued since are not performed. -/
  | fence (n : Nat)
  /-- Held at a range word or an XPUB whose operands and pages have been checked (R253, R282): operations numbered below n were
  issued before it, and the lines from the place pos of its runs on are still to be touched; a run is its first line and their number. -/
  | lines (n : Nat) (runs : List (Nat × Nat)) (pos : Nat)
  /-- Arrived at the rendezvous latch with the values read for a, b and c; operations numbered below n were issued
  before (R315). -/
  | gang (n : Nat) (guard : Bool) (op : Nat) (a b c : DWord)
  deriving DecidableEq, Repr

/-- A split slot: program counter, lane mask, frame number (255 for none), latches, what it is
blocked on, the words fetched ahead, and the words of the instruction at its program counter once it has come to issue, which is
executed as fetched (R77, R105, R278, R281). -/
structure Split where
  pc : VA
  mask : LaneMask
  frame : BitVec 8
  l : List LatchL
  m : List LatchM
  wait : Wait
  buf : List (VA × Word)
  cur : List (VA × Word)
  deriving DecidableEq, Repr

/-- A reconvergence frame (R77). -/
structure Frame where
  rcvpc : VA
  expect : LaneMask
  arrived : LaneMask
  parent : BitVec 8
  deriving DecidableEq, Repr

/-- A loop level: passes left (0 when inactive) and the bounds of its body (R69, R84). -/
structure Loop where
  count : BitVec 32
  start : VA
  stop : VA
  deriving DecidableEq, Repr

/-! ### Operations in flight (R220, R256) -/

/-- One lane's access: addresses, size, key, memory type, the bytes stored or the operands of an atomic, and, once a read has been
performed whose data has not returned, its bytes and the cause that poisons them (R240, R256). -/
structure Acc where
  lane : Nat
  va : Nat
  pa : Nat
  size : Nat
  key : Nat
  type : Nat
  hs : Bool
  data : List (Nat × Byte)
  opnd : Nat
  cmp : Nat
  got : Option (List Byte × Option (BitVec 10))
  deriving DecidableEq, Repr

/-- What an operation in flight does when it is performed. -/
inductive OpKind where
  /-- A load with the size code f; `wide` for the uniform set (R221, R248, R252). -/
  | load (f : Nat) (wide : Bool)
  /-- A store (R221, R248, R252). -/
  | store
  /-- An atomic that returns the old value; `wide` for ATU (R222, R249, R252). -/
  | atom (fn : Nat) (wide : Bool)
  /-- A reduction with no result (R250). -/
  | red (fn : Nat)
  /-- FPUSH of E words a lane to a ring (R223). -/
  | push (ring e : Nat)
  /-- FPOP of E words a lane (R223). -/
  | pop (ring e : Nat)
  /-- FPEEK of E words a lane at the lane's offset, held in each access's `va` (R223). -/
  | peek (ring e : Nat)
  /-- BANKSET of a macro to a mode (R225). -/
  | bankset (m mode : Nat)
  /-- XPROBE of a line's publish state (R283). -/
  | probe
  /-- An engine command on its way to its queue (R290). -/
  | engine (e : Nat)
  /-- MRESQ of a selector, in array order (R330). -/
  | mresq (sel : Nat)
  deriving DecidableEq, Repr

/-- An operation a warp has issued: its number, path (R220), what it does, its word, scope and ordering kinds (R259), the accesses
still to be performed or to return, and whether all of it has been performed. -/
structure Op where
  id : Nat
  path : Nat
  kind : OpKind
  word : Word
  scope : Nat
  acq : Bool
  rel : Bool
  accs : List Acc
  done : Bool
  deriving DecidableEq, Repr

/-! ### Traps, tasks and inline calls -/

/-- The part of a lane that a handler's shadow bank replaces (R340). -/
structure LaneShadow where
  q : List Cell32
  vhi : List Cell32
  p : List (BitVec 4)
  n : BitVec 8
  deriving DecidableEq, Repr

/-- The frozen state that a handler does not name directly (R339, R340): the cause, whether the trapped split stands in slot B,
what its shadow bank replaced, and the leases that RSTC loaded (R353). -/
structure Frozen where
  cause : Nat
  inB : Bool
  lanes : List LaneShadow
  k : List Cell64
  shi : List Cell64
  c : BitVec 7
  a : Option Split
  b : Option Split
  loops : List Loop
  loopBuf : List (Nat × Word)
  spillBase : Nat
  frames : List (Nat × Frame)
  away : List Nat
  depth : Nat
  loaded : List (Nat × Nat)
  saved : Bool
  deriving DecidableEq, Repr

/-- How a warp's running code was started (R182, R196). -/
inductive TaskKind where
  | root
  | deque
  | inlineSpawn
  | inlineJoin
  deriving DecidableEq, Repr

/-- The running task: TASKID's fields (R204), its own handle (R203), its ring space (R194) and its closure. -/
structure Task where
  kind : TaskKind
  index : BitVec 12
  stolen : Bool
  xstolen : Bool
  handle : DWord
  allot : Option Nat
  stageOff : Nat
  stageBytes : Nat
  words : List Word
  result : DWord
  due : List Nat
  stamped : List Nat
  deriving DecidableEq, Repr

/-- An inline frame (R196): register state, control state, FPC and stochastic state of the caller, and the place of the
call to complete when the inline task ends: its split slot, the destination of a JOIN, and the entry a JOIN frees. -/
structure InlineFrame where
  lanes : List Lane
  k : List Cell64
  s : List Cell64
  c : BitVec 7
  a : Option Split
  b : Option Split
  loops : List Loop
  loopBuf : List (Nat × Word)
  gang : DWord
  fpc : DWord
  frames : List (Nat × Frame)
  away : List Nat
  armed : List (Nat × Nat)
  splitSp : DWord
  task : Task
  inB : Bool
  nw : Bool
  d : Nat
  entry : Option (Nat × Nat)
  deriving DecidableEq, Repr

/-- A range guard of a firmware core (R379). -/
structure Guard where
  en : Bool
  base : VA
  len : Nat
  r : Bool
  w : Bool
  x : Bool
  deriving DecidableEq, Repr

/-- One level's own registers on a firmware core (R377). -/
structure LevelBank where
  k : List Cell64
  s : List Cell64
  c : BitVec 7
  m : List LatchM
  deriving DecidableEq, Repr

/-- An entry of a firmware core's level stack (R378). -/
structure LevelFrame where
  ret : VA
  level : Nat
  guards : BitVec 8
  deriving DecidableEq, Repr

/-- What only a firmware core has (R377 to R379). The running level's bank stands in the warp. -/
structure Fw where
  level : Nat
  vec : DWord
  prev : Option Nat
  banks : List (Nat × LevelBank)
  stack : List LevelFrame
  guards : List (Nat × Guard)
  deriving DecidableEq, Repr

/-- Whether a warp issues words. -/
inductive WarpStatus where
  /-- It runs. -/
  | running
  /-- Its last lane ended; the slot waits for its counters and batches (R93, R320). -/
  | ended
  /-- It stopped under R343 or R370. -/
  | failed
  /-- Parked by SIGS (R351). -/
  | parked
  deriving DecidableEq, Repr

/-- A debug stop (R355, R95). -/
inductive Debug where
  /-- No stop. -/
  | none
  /-- Requested, not yet taken; the split that is to count as the stopped one. -/
  | asked (b : Bool)
  /-- Stopped; the split that stopped. -/
  | stopped (b : Bool)
  /-- One word of that split is to run; whether it has been issued (R95). -/
  | stepping (b issued : Bool)
  deriving DecidableEq, Repr

/-- A residue or parity mismatch that both issues of the next word find (R113, R114): the lanes, and the source code reported, which
is 63 for the word's result. -/
structure Misfit where
  lanes : LaneMask
  code : Nat
  deriving DecidableEq, Repr

/-- A warp on its slot. `frames` are the frames on chip, at most four, and `away` the numbers of those whose records stand in the
split area (R82); `withdrawn` holds the ring operations that a save or a debug stop has withdrawn (R347), `trig`, once it has
executed TRIG, the writes it had not yet performed (R92, R371), and `staging` the allotment in which a SPAWN stages an inline call,
and `asks` that an inline call waits for ring space (R196, R216); `misfit` a mismatch of an operand, predicate, counter, seltag or
result that the word issued next takes (R114); `miss` the 0x243 of an abandoned operation that it is owed: bits [47:16] of the stall
record, and the operation's word (R323); `engs` the engine commands it has issued (R282). `stamped` holds, per die, that die's
counter on the last message that a write of the warp sent (R264). -/
structure Warp where
  launch : Nat
  wg : Option Nat
  windex : Nat
  width : Nat
  nv : Nat
  ns : Nat
  status : WarpStatus
  lanes : List Lane
  k : List Cell64
  s : List Cell64
  c : BitVec 7
  a : Option Split
  b : Option Split
  frames : List (Nat × Frame)
  away : List Nat
  spills : Nat
  loops : List Loop
  loopBuf : List (Nat × Word)
  armed : List (Nat × Nat)
  gang : DWord
  splitSp : DWord
  fpc : DWord
  ops : List Op
  withdrawn : List Op
  tcause : DWord
  tpc : DWord
  tmask : DWord
  tinfo : DWord
  frozen : Option Frozen
  savedArea : Option Nat
  dirty : Bool
  trig : Option (List Nat)
  task : Task
  inline : List InlineFrame
  next : Nat
  engs : List Nat
  openOps : List Nat
  closed : List (Nat × List Nat)
  req : List Nat
  debug : Debug
  noIssueBefore : Nat
  recent : List Nat
  staging : Option Nat
  asks : Bool
  misfit : Option Misfit
  miss : Option (Nat × Word)
  fw : Option Fw
  stamped : List Nat
  deriving DecidableEq, Repr

/-- What a warp slot is doing (R22, R23, R352). -/
inductive SlotUse where
  | free
  | reserved
  | staging
  | runnable
  | busy
  | parked
  | draining
  deriving DecidableEq, Repr

/-- A warp slot: its launch, its width, its workgroup's linear number, its use, its warp, the split area and the context
area assigned at placement (R20, R80, R347, R368; DESIGN CHOICE, log entry 26), and the closure it stages or drains. -/
structure Slot where
  launch : Nat
  width : Nat
  wg : Option Nat
  windex : Nat
  use : SlotUse
  warp : Option Warp
  area : Nat
  task : Option Task
  deriving DecidableEq, Repr

/-! ### A core (ch. 01, 06, 08, 16, 17) -/

/-- A member of a per-launch group whose context is parked and holds no slot (R352): the slot it had, whether it has arrived in
the open phase, and what a REDX.grp arrival carried (R89, R131). -/
structure Absent where
  slot : Nat
  arrived : Bool
  carried : Option (Nat × Bool × Word)
  deriving DecidableEq, Repr

/-- An entry of the group table (R87, R89): the launch, its workgroup (none for a per-launch entry), the image entry,
members, phase, arrivals, the operations that must be performed before an arrival counts (R91), what REDX.grp arrivals
carried (slot, function, x and value), totals not yet collected (slot, or 64 and the number of a parked context, phase, value; none
for 0x2C5) (R131), and the present members that hold no slot, by the number of their parked context. -/
structure Group where
  launch : Nat
  wg : Option Nat
  image : Nat
  members : BitVec 64
  phase : Nat
  arrived : BitVec 64
  due : List (Nat × List Nat)
  carried : List (Nat × Nat × Bool × Word)
  results : List (Nat × Nat × Option Word)
  absent : List (Nat × Absent)
  deriving DecidableEq, Repr

/-- A closure in a deque (R179, R186): its words, launch, the core and entry of its future with the generation, ring space of a
closure staged ahead (R192); `held` is the slot whose JOIN has taken it and awaits its tiles (R29); its start waits for the writes
that its SPAWN released: those not yet performed, and the stamps of those that are (R195); `cancelled` for one under way to a thief
that has been cancelled (R185). -/
structure Closure where
  words : List Word
  launch : Nat
  core : Nat
  entry : Nat
  gen : Nat
  allot : Option Nat
  held : Option Nat
  due : List Nat
  stamped : List Nat
  cancelled : Bool
  deriving DecidableEq, Repr

/-- The states of a future entry (R184, R185, R291). -/
inductive FutState where
  | free
  | queued
  | staging
  | runnable
  | running
  | draining
  | engine
  | resolved
  | cancelled
  | failed
  deriving DecidableEq, Repr

/-- A future-table entry (R184, R185): generation, state, launch, the core where the closure is, value, failure cause, what a JOIN
reports with the cause, the page at which a loader or storer failed (R191), whether the engine operation outlived its launch's slots
(R292), and the stamps that a JOIN must have applied (R195, R264). -/
structure Future where
  gen : Nat
  st : FutState
  launch : Nat
  place : Nat
  value : DWord
  cause : Nat
  info : Nat
  page : Nat
  orphan : Bool
  stamped : List Nat
  deriving DecidableEq, Repr

/-- An allotment of the staging ring (R216): its number, place, length, whether freed, whether bytes were skipped before
it, the closure it is for and its launch, the input tiles not yet loaded, the bytes moved of each tile, and the first failure
of the loader or the storer: its cause and the faulting page (R191, R193). -/
structure Allot where
  id : Nat
  off : Nat
  len : Nat
  freed : Bool
  skipped : Bool
  words : List Word
  launch : Nat
  tiles : List Nat
  moved : List (Nat × Nat)
  fault : Option (Nat × Nat)
  deriving DecidableEq, Repr

/-- A scratchpad allocation of a workgroup (R211): the SCRATCH macros when it was made, and its offset in them. -/
structure Alloc where
  wg : Nat
  launch : Nat
  macros : List Nat
  base : Nat
  len : Nat
  deriving DecidableEq, Repr

/-- A workgroup placed on a core (R19, R20, R354). -/
structure Workgroup where
  launch : Nat
  index : Nat
  placed : Nat
  rings : Bool
  xpubs : List Nat
  deriving DecidableEq, Repr

/-- A thief's steal in progress for a reserved slot (R187, R188): position in the rotation, the victim asked, the answer
on its way, the free ring bytes offered, and the cycle before which no new rotation starts. -/
structure Steal where
  slot : Nat
  pos : Nat
  asked : Option Nat
  answer : Option (Option Closure)
  bytes : Nat
  until_ : Nat
  deriving DecidableEq, Repr

/-- A captured row of a matrix operation (R315): `aux` is its scale bytes or dY row, `view` the macros of the window its
output falls in and the place of the window in them. -/
structure Row where
  pos : Nat
  member : Nat
  lane : Nat
  sel : Nat
  index : Word
  a : List Byte
  aux : List Byte
  view : List Nat × Nat
  deriving DecidableEq, Repr

/-- A matrix operation in the array queue (R317): number, opcode (0 to 11 for 0x60 to 0x6B), word, operands, rows not yet
performed, the issuing slots, the window its addresses fall in, and how many 4-byte units of its head row, or of itself where
it has no rows, are performed (R318). -/
structure MatOp where
  id : Nat
  op : Nat
  word : Word
  a : DWord
  b : DWord
  c : DWord
  rows : List Row
  slots : List Nat
  view : List Nat × Nat
  at_ : Nat
  deriving DecidableEq, Repr

/-- The stall record (R321, Table 8 of R330), with the owner's slot; `taken` when no 0x243 is owed to the owner. -/
structure Stall where
  stalled : Bool
  lost : Bool
  op : Nat
  lane : Nat
  member : Nat
  row : Nat
  batch : Nat
  sel : Nat
  owner : Nat
  word : Word
  taken : Bool
  deriving DecidableEq, Repr

/-- The matrix array of a core (R308): suits (8,192 bytes of weights and 512 of scales each, unlisted bytes 0). -/
structure Matrix where
  suits : List (Nat × List Host.Cell)
  fmt : Nat
  mx : Bool
  hand : List (Nat × Nat)
  stall : Stall
  owner : Option Nat
  heldSince : List Nat
  queue : List MatOp
  deriving DecidableEq, Repr

/-- A core, with the slots whose tasks wait for ring space, in the order in which their requests reached it (R216), the lines that
its L0 and its instruction cache hold and the cycles at which their leases end (R239, R281): a compute core (numbers 0 to 511) or a
firmware core (512 + 4·die + i), whose one warp stands in slot 0. -/
structure Core where
  slots : List (Nat × Slot)
  fair : List ((Nat × Bool) × (Nat × Bool))
  yields : List ((Nat × Bool) × (Nat × Bool))
  modeVec : Option (List Nat)
  modes : List Nat
  sram : List Host.Cell
  badWords : List Nat
  allocs : List Alloc
  head : Nat
  tail : Nat
  allots : List Allot
  asks : List Nat
  rings : List (Nat × List Cell32)
  ringWait : List (Nat × Bool × Nat × Nat)
  wgs : List Workgroup
  groups : List Group
  tenant : Nat
  deque : List Closure
  futures : List (Nat × Future)
  parkedAreas : List (Nat × List Closure × List (Nat × Future))
  lsteal : Nat
  xsteal : Nat
  steals : List Steal
  arrivals : List (Nat × Closure)
  matrix : Matrix
  leases : List (Nat × Nat)
  ileases : List (Nat × Nat)
  tlb : List (Nat × Nat × Nat × DWord)
  dbg : DWord
  retire : Bool
  retired : Bool
  err : Bool
  temp : Nat
  hot : Bool
  energy : Nat
  withheld : Bool
  deriving DecidableEq, Repr

/-! ### Memory, dies and the package (ch. 09, 10, 13, 15, 19 to 21) -/

/-- What stands behind a line that has been accessed under a key (R237): the key index under which L2 was last filled, whether L2
still holds it so, and the key material under which memory holds it. Its bytes in `mem` are those read under the index. -/
structure LineKey where
  index : Nat
  cached : Bool
  mat : BitVec 512
  deriving DecidableEq, Repr

/-- A copy of a TYPE 1 line in a die's slices of a partition (R244): whether its page is host-sectored (R245), the key index it was
filled under (R237), the bytes it holds and which are dirty. -/
structure Copy1 where
  line : Nat
  part : Option Nat
  hs : Bool
  key : Option Nat
  bytes : List (Nat × Byte)
  dirty : BitVec 128
  deriving DecidableEq, Repr

/-- A stamped message on its way to a die (R264): its sender, the sender's clock, and the line whose copy it drops. -/
structure Msg where
  src : Nat
  stamp : List Nat
  line : Nat
  deriving DecidableEq, Repr

/-- A die (R16, R242 to R244, R264, R354, R397, R402, R405); `tlb` holds, by cluster, the translations that the cluster keeps
(R234). -/
structure Die where
  up : Bool
  cycles : Nat
  clock : List Nat
  inbox : List Msg
  copies0 : List (Nat × Option Nat × List Byte)
  copies1 : List Copy1
  decoded : List (Nat × List Byte)
  l1 : List (Nat × Nat)
  tlb : List (Nat × Nat × Nat × Nat × DWord)
  minres : Nat
  thermhot : Nat
  spares : Nat
  ports : List (Bool × Nat)
  deriving DecidableEq, Repr

/-- The publish state of a line at its home slice; a line not listed is UNPUBLISHED (R279, R280). -/
inductive Pub where
  | clean
  /-- Published at a scope by a core; the core number of a firmware core is 512 or above. -/
  | pub (scope core : Nat)
  deriving DecidableEq, Repr

/-- A key slot (R389). -/
structure KeySlot where
  material : BitVec 512
  written : BitVec 8
  granted : Bool
  part : Nat
  deriving DecidableEq, Repr

/-- A structural operation in progress (R395): the other partition, whether it is a split, the cycle at which its drain ends,
and whether ownership has moved, with the quarters that a split moves. -/
structure Merging where
  other : Nat
  split : Bool
  mask : BitVec 32
  until_ : Nat
  moved : Bool
  deriving DecidableEq, Repr

/-- A partition's registers (R384, R391, R392, R395, R297, R171), the shoot-down in progress with the number of the first
operation after it, the structural operation in progress, and the number of its present energy window. -/
structure Part where
  quarters : BitVec 32
  quiesce : Bool
  en : Bool
  budget : BitVec 32
  used : Nat
  exh : Bool
  refused : Bool
  netwt : DWord
  shoot : DWord
  busy : Bool
  shootFrom : Nat
  mergectl : DWord
  mergestat : DWord
  windows : List (Nat × List DWord)
  merging : Option Merging
  window : Nat
  deriving DecidableEq, Repr

/-- Where an engine operation stands (R290 to R295). -/
inductive EngSt where
  | travelling
  | queued
  | running
  /-- Final, resolved or not; kept while members of its collective are not (R303). -/
  | gone (ok : Bool)
  deriving DecidableEq, Repr

/-- A part of a chunk's access: translated, and within one line (R293). -/
structure EngPiece where
  pa : Nat
  type : Nat
  hs : Bool
  key : Nat
  len : Nat
  va : Nat
  deriving DecidableEq, Repr

/-- An engine operation (R289 to R303): its opcode (0x50 CPY, 0x51 CPY2D, 0x52 COLL), queue, command, launch, partition and
page-table root, the slot of the warp that issued it, its future or packet, a collective's members and number, the bytes of the
chunks completed, what is left of the present chunk to read and to write, the bytes of a copy read and not yet written, those that a
member of a collective has read of its source, each run with its place in it, and how it ends. -/
structure EngOp where
  id : Nat
  op : Nat
  queue : Nat
  launch : Nat
  part : Nat
  die : Nat
  root : Nat
  warp : Option (Nat × Nat)
  fut : Option (Nat × Nat)
  pkt : Option (Nat × Nat)
  dst : Nat
  src : Nat
  ctl : DWord
  pitch : DWord
  members : List (Nat × Nat)
  nth : Nat
  st : EngSt
  done : Nat
  chunk : Nat
  reads : List EngPiece
  writes : List EngPiece
  buf : List Byte
  source : List (Nat × List Byte)
  cancel : Bool
  fail : Option (Nat × Nat)
  stamped : List Nat
  deriving DecidableEq, Repr

/-- A tile load or store that has reached the loader or storer of a stack (R190, R193, R305): the core, the allotment and the tile, and
what is left to move of what has been translated and checked. -/
structure Request where
  core : Nat
  allot : Nat
  tile : Nat
  pieces : List EngPiece
  deriving DecidableEq, Repr

/-- A place of an engine queue: a command or a QFENCE join, which stands in several queues (R268, R289). -/
inductive Place where
  | cmd (e : Nat)
  | join (j : Nat)
  deriving DecidableEq, Repr

/-- An engine queue: its places and how many operations became final (R289, R304). -/
structure EngQueue where
  places : List Place
  done : Nat
  deriving DecidableEq, Repr

/-- A kernel header with its tables, as read once at launch (R64 to R66). -/
structure Header where
  width : Nat
  wgWarps : Nat
  nv : Nat
  ns : Nat
  modes : List Nat
  scratch : Nat
  trapOff : Int
  tasks : List (Int × Nat)
  groups : List (BitVec 16 × Bool)
  energy : Nat
  fpcrm : Nat
  nosteal : Bool
  noxsteal : Bool
  textBytes : Nat
  deriving DecidableEq, Repr

/-- How a launch stands (R369, R370). -/
inductive LaunchSt where
  | running
  | failed
  | cancelled
  | complete
  deriving DecidableEq, Repr

/-- A launch (R365 to R371): its queue and packet, partition, page-table root and context pool, header, grid, arguments,
how many workgroups are placed and have exited, the core last chosen, the error record of a failure (R343): cause, TPC,
TMASK, TINFO and the frozen TCAUSE, with the core and slot of the warp that stopped, while the record is not written; the
stamps of the writes of its warps that have left (R264, R371), and what a die must have applied before a workgroup starts on it
(R362, R371). -/
structure Launch where
  queue : Nat
  pkt : Nat
  node : Option Nat
  part : Nat
  root : Nat
  pool : Nat
  poolSize : Nat
  kernel : Nat
  header : Header
  nx : Nat
  ny : Nat
  nz : Nat
  tslots : Nat
  args : DWord
  k1 : DWord
  ident : DWord
  placed : Nat
  last : Option Nat
  exited : Nat
  st : LaunchSt
  cause : Nat
  record : List DWord
  errAt : Option (Nat × Nat)
  stamped : List Nat
  due : List Nat
  deriving DecidableEq, Repr

/-- A packet that runs inside another: a packet of an indirect buffer (R372), with whether its completion word has been
seen to, or a node of a graph run (R374). -/
structure Inner where
  idx : Nat
  bytes : List Byte
  started : Bool
  complete : Bool
  reported : Bool
  launch : Option Nat
  eng : Option Nat
  deriving DecidableEq, Repr

/-- A packet that is fetched and not yet counted in DONE (R360 to R364): its number and 64 bytes, how it stands, what it
runs, the graph version a RUN captured (R374) with the place of its parameter copy, the packets inside it, the cause and code with which
it stops its queue, if it does (R375), and whether its completion store has failed (R406). -/
structure Pkt where
  num : Nat
  bytes : List Byte
  started : Bool
  complete : Bool
  discarded : Bool
  launch : Option Nat
  eng : Option Nat
  version : List (List Byte)
  params : Nat
  inner : List Inner
  halted : Option (Nat × Nat)
  mute : Bool
  deriving DecidableEq, Repr

/-- A hardware command queue (R359, R375): its binding, with the base of its context pool and the pool's size in units of 256 KiB, its
ring, pointers, STATUS, the packets in hand, its LAUNCHes (newest first): the launch of one that started, and none for one that never
did (R371), a SKIP (false) or FLUSH (true) that a NOTIFY found and is not acted on yet, with the WPTR it read, a
flush in progress: that WPTR and the first packet cancelled, and the stamps of its own writes (R264). -/
structure Queue where
  die : Nat
  part : Nat
  vf : Nat
  slot : Nat
  root : Nat
  pool : Nat
  poolSize : Nat
  ring : Nat
  size : Nat
  rptr : Nat
  done : Nat
  stopped : Bool
  status : DWord
  pkts : List Pkt
  launches : List (Option Nat)
  notice : Option (Bool × Nat)
  flush : Option (Nat × Nat)
  dying : Bool
  stamped : List Nat
  deriving DecidableEq, Repr

/-- A parked context that the command processor knows (R351, R352): `area` is its saved area, `base` the context memory that it
keeps, and `out` says that it holds no slot: that of a task, or of a workgroup that was lifted from its core. -/
structure Parked where
  launch : Nat
  wg : Option Nat
  windex : Nat
  core : Nat
  slot : Nat
  area : Nat
  base : Nat
  out : Bool
  warp : Warp
  deriving DecidableEq, Repr

/-- A workgroup all of whose warps are parked, lifted from its core (R352): the core, the bytes of its scratchpad allocation, its
per-workgroup group entries, its slots by warp index, and the scopes of its XPUBs. -/
structure Lifted where
  launch : Nat
  index : Nat
  core : Nat
  bytes : List Byte
  groups : List Group
  slots : List (Nat × Nat)
  xpubs : List Nat
  deriving DecidableEq, Repr

/-- The issuing agent of the word that `exec` runs: core, warp slot, and split slot B or A. -/
structure Cur where
  core : Nat
  slot : Nat
  b : Bool
  deriving DecidableEq, Repr

/-- The module host page and what bring-up found (R401, R403). -/
structure HostPage where
  bootstat : DWord
  attaddr : DWord
  busy : Bool
  done : Bool
  err : Bool
  nonce : BitVec 512
  deriving DecidableEq, Repr

/-- The stores of one warp that a die has stamped since anything but stores and fences of warps happened (R264): the warp's core and
slot, and its die's own counter before the first of them and after the last. -/
structure Solo where
  core : Nat
  slot : Nat
  before : Nat
  last : Nat
  deriving DecidableEq, Repr

/-- The whole machine. `loaders` holds, in order of arrival, the requests at the loader (2·stack) and the storer (2·stack + 1) of each
stack; `image` is the address at which the boot ROM loaded the firmware image, and `firmware` its security version and its bytes, where
they are known (R400; DESIGN CHOICE, log entry 3). -/
structure State where
  turn : Turn
  cur : Cur
  free : Nat
  serial : Nat
  cores : List (Nat × Core)
  dies : List Die
  mem : List Host.Cell
  lineKeys : List (Nat × LineKey)
  badLines : List Nat
  image : Nat
  firmware : Option (Nat × List Byte)
  pubs : List (Nat × Pub)
  writes : List (Nat × Nat)
  lineClocks : List (Nat × List Nat)
  solo : Option Solo
  l2old : List (Nat × List Byte)
  sectors : List (Nat × List (Option (List Byte)))
  ctrl : List Host.Cell
  logs : List (Nat × List DWord × Nat)
  meters : List (Nat × Nat)
  parts : List (Nat × Part)
  keys : List (Nat × KeySlot)
  vfmap : List (Nat × DWord)
  attach : List (Nat × DWord)
  comms : List ((Nat × Nat × Nat) × List (Nat × Nat))
  collSeq : List (((Nat × Nat × Nat) × List (Nat × Nat)) × Nat)
  queues : List (Nat × Queue)
  launches : List (Nat × Launch)
  engQueues : List (Nat × EngQueue)
  engOps : List (Nat × EngOp)
  loaders : List (Nat × List Request)
  graphs : List ((Nat × Nat) × List (List Byte))
  parked : List (Nat × Parked)
  lifted : List Lifted
  host : HostPage
  limiting : Bool
  deriving DecidableEq, Repr

/-! ### Stops -/

/-- Faults: where the model stops because the state is none that the machine reaches. -/
inductive Fault where
  /-- An instruction word is executed while `cur` names no warp: raised by every word's meaning, never by `step`, which
  sets `cur` to the split it issues. Safe: no hardware state is like that. -/
  | noWarp
  deriving DecidableEq, Repr

/-- Refusals: where the spec gives no effect. -/
inductive Refusal where
  /-- An instruction with no meaning yet. Safe. -/
  | notModelled (mnemonic : String)
  /-- An instruction of a compute core's own unit (engines, matrix array, core SRAM, contexts) executed by a
  firmware core, which has no such unit and for which the spec gives no effect. Safe. -/
  | firmwareUnit (opcode : Nat)
  deriving DecidableEq, Repr

/-! ### Reset values -/

/-- An invalid lane latch. -/
def LatchL.empty : LatchL := { valid := false, cells := [] }

/-- An invalid uniform latch. -/
def LatchM.empty : LatchM := { valid := false, cell := Cell64.of 0 }

/-- A split with no frame and invalid latches (R69, R70). -/
def Split.start (pc : VA) (mask : LaneMask) : Split :=
  { pc := pc, mask := mask, frame := 255, l := List.replicate 4 LatchL.empty, m := List.replicate 4 LatchM.empty,
    wait := .none, buf := [], cur := [] }

/-- A lane at warp start: registers and predicates 0, counter 0, seltag 0xFF, stochastic state by R148. -/
def Lane.start (l : Nat) : Lane :=
  { q := List.replicate 16 (Cell32.of 0), v := List.replicate 32 (Cell32.of 0), p := List.replicate 7 0, n := 0,
    tag := 0xFF, sr := BitVec.ofNat 32 ((l + 1) * 0x9E3779B9) }

/-- The first n lanes of a mask. -/
def lanesMask (n : Nat) : LaneMask := BitVec.ofNat 64 (2 ^ n - 1)

/-- A root task (R204). -/
def Task.root : Task :=
  { kind := .root, index := 0, stolen := false, xstolen := false, handle := 0, allot := none, stageOff := 0,
    stageBytes := 0, words := [], result := 0, due := [], stamped := [] }

/-- An inactive loop level. -/
def Loop.off : Loop := { count := 0, start := 0, stop := 0 }

/-- A warp at warp start (R69, R97): split A holds every lane at the entry. -/
def Warp.start (launch : Nat) (wg : Option Nat) (windex width nv ns : Nat) (entry : VA) (splitSp fpc : DWord) : Warp :=
  { launch := launch, wg := wg, windex := windex, width := width, nv := nv, ns := ns, status := .running,
    lanes := (List.range width).map Lane.start, k := List.replicate 16 (Cell64.of 0),
    s := List.replicate 32 (Cell64.of 0), c := 0, a := some (Split.start entry (lanesMask width)), b := none,
    frames := [], away := [], spills := 0, loops := List.replicate 3 Loop.off, loopBuf := [], armed := [], gang := 0,
    splitSp := splitSp, fpc := fpc, ops := [], withdrawn := [], tcause := 0, tpc := 0, tmask := 0, tinfo := 0, frozen := none,
    savedArea := none, dirty := false, trig := none, task := Task.root, inline := [], next := 0, engs := [], openOps := [],
    closed := [], req := [], debug := .none, noIssueBefore := 0, recent := [], staging := none, asks := false, misfit := none, miss := none, fw := none,
    stamped := List.replicate 8 0 }

/-- The stall record after a clear (R308). -/
def Stall.clear : Stall :=
  { stalled := false, lost := false, op := 0, lane := 0, member := 0, row := 0, batch := 0, sel := 0, owner := 0,
    word := 0, taken := true }

/-- The array after a clear (Table 1 of R308). -/
def Matrix.clear : Matrix :=
  { suits := [], fmt := 1, mx := false, hand := [], stall := Stall.clear, owner := none, heldSince := [], queue := [] }

/-- A core after reset: no slots, modes CACHE, an empty deque and future table (DESIGN CHOICE, log entry
7; DESIGN CHOICE, log entry 8). -/
def Core.reset : Core :=
  { slots := [], fair := [], yields := [], modeVec := none, modes := [0, 0, 0, 0], sram := [], badWords := [],
    allocs := [], head := 0, tail := 0, allots := [], asks := [], rings := [], ringWait := [], wgs := [], groups := [], tenant := 0,
    deque := [], futures := [], parkedAreas := [], lsteal := 1, xsteal := 4, steals := [], arrivals := [],
    matrix := Matrix.clear, leases := [], ileases := [], tlb := [], dbg := 0, retire := false, retired := false, err := false, temp := 0,
    hot := false, energy := 0, withheld := false }

/-- What a firmware core holds as it leaves reset (R377): level 0, FWVEC as the ROM set it (DESIGN CHOICE, log entry 3). -/
def Fw.reset (vec : DWord) : Fw :=
  { level := 0, vec := vec, prev := none, banks := [], stack := [], guards := [] }

/-- A firmware core at the firmware entry (R377): a warp with no lane in slot 0. -/
def Core.firmware (vec : DWord) : Core :=
  let w := Warp.start 0 none 0 0 0 32 (BitVec.ofNat 57 (vec.toNat + 0xD000)) 0 0
  let warp : Warp := { w with fw := some (Fw.reset vec) }
  let slot : Slot :=
    { launch := 0, width := 0, wg := none, windex := 0, use := .busy, warp := some warp, area := 0, task := none }
  { Core.reset with slots := [(0, slot)] }

/-- The registers of a die after bring-up (R16, R354, R402, R405): `up` when its firmware was
accepted (DESIGN CHOICE, log entry 9). -/
def Die.reset (up : Bool) (spares : Nat) (ports : List (Bool × Nat)) : Die :=
  { up := up, cycles := 0, clock := List.replicate 8 0, inbox := [], copies0 := [], copies1 := [], decoded := [],
    l1 := [], tlb := [], minres := 6000000, thermhot := 95, spares := spares, ports := ports }

/-- A partition's registers after reset (R384, R391, R392, R395, R297). -/
def Part.reset : Part :=
  { quarters := 0, quiesce := false, en := false, budget := 0xFFFFFFFF, used := 0, exh := false, refused := false,
    netwt := 0x248, shoot := 0, busy := false, shootFrom := 0, mergectl := 0, mergestat := 0, windows := [], merging := none,
    window := 0 }

/-- The failing places of a die, ascending, and how many of them the working spares replace (R402). -/
def unreplaced (failing : List Nat) (d spares : Nat) : List Nat :=
  ((List.range 64).filter fun p => failing.contains (64 * d + p)).drop spares

/-- The working spares of a die: its four spare cores, numbered 4096 + 4·die + i in `failing`, less those that fail. -/
def workingSpares (failing : List Nat) (d : Nat) : Nat :=
  ((List.range 4).filter fun i => !failing.contains (4096 + 4 * d + i)).length

/-- Bring-up (R400 to R402): the state after step 6 for the dies whose firmware was accepted, the cores that failed their
test, and the ports that trained. -/
def bringUp (acc : BitVec 8) (failing : List Nat) (up : BitVec 32) (vec : DWord) : State :=
  let ok (d : Nat) : Bool := acc.getLsbD d
  let withheld (q : Nat) : Bool :=
    !ok (q / 4) || (unreplaced failing (q / 4) (workingSpares failing (q / 4))).any fun p => p / 16 == q % 4
  let lead := ((List.range 8).filter ok).headD 0
  let failq := (List.range 32).foldl (fun a q => if ok (q / 4) && withheld q then a + 2 ^ q else a) 0
  let fails := (List.range 8).foldl (fun a d => if ok d then a else a + 2 ^ d) 0
  let left (d : Nat) : Nat := workingSpares failing d -
    ((List.range 64).filter fun p => failing.contains (64 * d + p)).length
  { turn := .issue 512 0 false true, cur := { core := 0, slot := 0, b := false }, free := 0, serial := 1,
    cores := (((List.range 32).filter withheld).flatMap fun q =>
        (List.range 16).map fun p => (16 * q + p, { Core.reset with withheld := true })) ++
      ((List.range 32).filter fun i => ok (i / 4)).map fun i => (512 + i, Core.firmware vec),
    dies := (List.range 8).map fun d => Die.reset (ok d) (left d)
      ((List.range 4).map fun i => (ok d && up.getLsbD (4 * d + i), 0)),
    mem := [], lineKeys := [], badLines := [], image := vec.toNat, firmware := none, pubs := [], writes := [], lineClocks := [], solo := none,
    l2old := [], sectors := [], ctrl := [], logs := [], meters := [], parts := [], keys := [], vfmap := [], attach := [],
    comms := [], collSeq := [], queues := [], launches := [], engQueues := [], engOps := [], loaders := [], graphs := [], parked := [], lifted := [],
    host := { bootstat := BitVec.ofNat 64 (if fails == 255 then 0 else 2 ^ 63 + failq * 2 ^ 16 + lead * 2 ^ 8 + fails),
              attaddr := 0, busy := false, done := false, err := false, nonce := 0 },
    limiting := false }

/-- The machine right after reset (R401): every die's firmware accepted, no failing core, every port trained, FWVEC as
log entry 3 says. -/
def State.reset : State := bringUp 0xFF [] 0xFFFFFFFF 0

end Sys2Proof.Machine
end

