-- ==== Sys2Proof/Machine/Mem.lean ====
section
/-! DEFINITION. Tables by key, memory in its canonical form, and the accessors of the state. -/

namespace Sys2Proof.Machine

open Sys2Proof

/-! ### Tables by key -/

/-- The entry of a key. -/
def get {α β : Type} [DecidableEq α] (l : List (α × β)) (k : α) : Option β :=
  match l with
  | [] => none
  | (j, v) :: r => if j = k then some v else get r k

/-- The table with the entry of a key replaced or added. -/
def put {α β : Type} [DecidableEq α] (l : List (α × β)) (k : α) (v : β) : List (α × β) :=
  match l with
  | [] => [(k, v)]
  | (j, w) :: r => if j = k then (k, v) :: r else (j, w) :: put r k v

/-- The table without a key. -/
def del {α β : Type} [DecidableEq α] (l : List (α × β)) (k : α) : List (α × β) := l.filter fun e => e.1 ≠ k

/-- The table with the entry of a key changed, if there is one. -/
def mapAt {α β : Type} [DecidableEq α] (l : List (α × β)) (k : α) (f : β → β) : List (α × β) :=
  match get l k with
  | some v => put l k (f v)
  | none => l

/-- The list with place i replaced. -/
def setAt {α : Type} (l : List α) (i : Nat) (v : α) : List α := l.set i v

/-! ### Memory: pairs of an address and a byte, addresses rising, no listed byte 0; an unlisted byte reads 0 -/

/-- What an address that memory does not list reads as (R401 zeroes HBM4E; DESIGN CHOICE, log entry 1 for the rest). -/
def unlisted : Byte := 0

/-- The byte at an address. -/
def memGet : List Host.Cell → Nat → Byte
  | [], _ => unlisted
  | (b, v) :: r, a => if b = a then v else memGet r a

/-- Memory with one byte written. -/
def memSet : List Host.Cell → Nat → Byte → List Host.Cell
  | [], a, v => if v = unlisted then [] else [(a, v)]
  | (b, w) :: r, a, v =>
    if b < a then (b, w) :: memSet r a v
    else if b = a then (if v = unlisted then r else (a, v) :: r)
    else if v = unlisted then (b, w) :: r else (a, v) :: (b, w) :: r

/-- Whether every listed address lies above a bound, rising, with no byte 0. -/
def memFrom : Nat → List Host.Cell → Bool
  | _, [] => true
  | lo, (b, w) :: r => decide (lo ≤ b) && decide (w ≠ unlisted) && memFrom (b + 1) r

/-- Memory in its canonical form. -/
def Memory.wf (m : List Host.Cell) : Bool := memFrom 0 m

/-- n bytes from an address upward. -/
def memRead (m : List Host.Cell) (a n : Nat) : List Byte := (List.range n).map fun i => memGet m (a + i)

/-- Memory with bytes written from an address upward. -/
def memWrite (m : List Host.Cell) (a : Nat) : List Byte → List Host.Cell
  | [] => m
  | b :: r => memWrite (memSet m a b) (a + 1) r

/-- Memory with bytes written at offsets from an address. -/
def memPatch (m : List Host.Cell) (a : Nat) (l : List (Nat × Byte)) : List Host.Cell :=
  l.foldl (fun m e => memSet m (a + e.1) e.2) m

/-- An n-byte little-endian number in memory (R5). -/
def memNat (m : List Host.Cell) (a n : Nat) : Nat := ofBytes (memRead m a n)

/-! ### Accessors of the state -/

/-- A core by its number. -/
def State.core (s : State) (c : Nat) : Core := (get s.cores c).getD Core.reset

/-- The state with a core replaced. -/
def State.setCore (s : State) (c : Nat) (k : Core) : State := { s with cores := put s.cores c k }

/-- A warp slot. -/
def State.slot (s : State) (c w : Nat) : Option Slot := get (s.core c).slots w

/-- A core with a warp slot replaced. -/
def Core.setSlot (k : Core) (w : Nat) (t : Slot) : Core := { k with slots := put k.slots w t }

/-- The state with a warp slot replaced. -/
def State.setSlot (s : State) (c w : Nat) (t : Slot) : State := s.setCore c ((s.core c).setSlot w t)

/-- The warp on a slot. -/
def State.warp (s : State) (c w : Nat) : Option Warp := (s.slot c w).bind (·.warp)

/-- The state with the warp on a slot replaced; nothing where there is no such slot. -/
def State.setWarp (s : State) (c w : Nat) (x : Warp) : State :=
  match s.slot c w with
  | some t => s.setSlot c w { t with warp := some x }
  | none => s

/-- A split of a warp. -/
def Warp.split (x : Warp) (b : Bool) : Option Split := if b then x.b else x.a

/-- A warp with a split slot replaced. -/
def Warp.setSplit (x : Warp) (b : Bool) (p : Option Split) : Warp := if b then { x with b := p } else { x with a := p }

/-- The die of a core (R14); firmware cores are numbered 512 + 4·die + i. -/
def coreDie (c : Nat) : Nat := if c < 512 then c / 64 else (c - 512) / 4

/-- The logical cluster of a core in its die (R14). -/
def coreCluster (c : Nat) : Nat := c % 64 / 4

/-- Whether a core number is a firmware core's (DESIGN CHOICE, log entry 35). -/
def isFw (c : Nat) : Bool := decide (512 ≤ c)

/-- A die. -/
def State.die (s : State) (d : Nat) : Die := s.dies.getD d (Die.reset false 0 [])

/-- The state with a die replaced. -/
def State.setDie (s : State) (d : Nat) (x : Die) : State := { s with dies := s.dies.set d x }

/-- The partition that owns a core's quarter, if any (R382). -/
def State.partOf (s : State) (c : Nat) : Option Nat :=
  (s.parts.find? fun e => e.2.en && e.2.quarters.getLsbD (c / 16)).map (·.1)

/-- A partition's registers. -/
def State.part (s : State) (p : Nat) : Part := (get s.parts p).getD Part.reset

/-- The state with a partition's registers replaced. -/
def State.setPart (s : State) (p : Nat) (x : Part) : State := { s with parts := put s.parts p x }

/-- A die's time base (R16): the package's count and how far the die stands from it, at most 64 cycles (DESIGN CHOICE, log entry 10). -/
def State.timeOf (s : State) (d : Nat) : Nat := (s.die d).cycles + Config.dieSkew d % 65

/-- The next free-value counter. -/
def State.tick (s : State) : State := { s with free := s.free + 1 }

/-- The state with the next serial number taken (DESIGN CHOICE, log entry 34). -/
def State.fresh (s : State) : State := { s with serial := s.serial + 1 }

end Sys2Proof.Machine
end

