-- ==== Sys2Proof/Machine/Blocks.lean ====
section
/-! DEFINITION. Blocks and their scales (R143 to R146), and the format windows that decode them (R171 to R175). -/

namespace Sys2Proof.Machine

open Sys2Proof

/-- Bits of an element of a format (R141, R142). -/
def formatBits (f : Nat) : Nat :=
  if f = 7 then 4 else if f = 5 ∨ f = 6 then 6 else if f = 1 ∨ f = 2 ∨ f = 10 then 16
  else if f = 0 ∨ f = 11 ∨ f = 12 then 32 else if f = 14 then 20 else 8

/-- Bits of an element's place in a lane word (R143): a 6-bit element takes a byte. -/
def slotBits (f : Nat) : Nat := if f = 5 ∨ f = 6 then 8 else formatBits f

/-- The value of an integer as a number. -/
def Num.ofInt (i : Int) : Num := .fin (i < 0) i.natAbs 0

/-- The value of a block's element pattern (R145, R146): floating, MXINT8 as i ÷ 64, or a plain integer in VB128. -/
def elemNum (f : Nat) (vb : Bool) (w : Nat) : Num :=
  if f = 8 then (match Num.ofInt (signed 8 w) with
    | .fin n m e => .fin n m (if vb then e else e - 6)
    | x => x)
  else (floatFmt f).unpack w

/-- The value of a scale pattern, as magnitude and exponent; none for a NaN (R142). -/
def scaleNum (vb : Bool) (w : Nat) : Option (Nat × Int) :=
  if vb then
    (let e := bitsOf 8 12 w
     if e = 255 then none else some (4096 + bitsOf 12 0 w, (e : Int) - 127 - 12))
  else if w % 256 = 255 then none else some (1, ((w % 256 : Nat) : Int) - 127)

/-- Scale times element (R145, R146). -/
def blockNum (vb : Bool) (f scale w : Nat) : Num :=
  match scaleNum vb scale with
  | none => .nan false false
  | some s =>
    match elemNum f vb w with
    | .fin n m e => .fin n (m * s.1) (e + s.2)
    | x => x

/-- An element and its scale decoded to BF16 with RNE (R172). -/
def decodeElem (vb : Bool) (f scale w : Nat) : Nat := (BF16.convert .rne 0 false (blockNum vb f scale w)).bits

/-! ### Format windows -/

/-- The window of a partition that covers an aperture address: FWCTL, and the raw, scale and decoded bases. -/
def State.windowOf (s : State) (p : Option Nat) (pa : Nat) : Option (List DWord) :=
  match p with
  | none => none
  | some p =>
    ((s.part p).windows.find? fun e =>
      let ctl := (e.2.getD 0 0).toNat
      let base := bitsOf 36 16 (e.2.getD 3 0).toNat * 65536
      let n := if bitsOf 4 4 ctl = 0 then 32 else 128
      flag 63 ctl && base ≤ pa && pa < base + bitsOf 32 0 (e.2.getD 4 0).toNat * n * 2).map (·.2)

/-- A byte of HBM4E as the memory controller holds it (R175): the older one where the home L2 holds a newer. -/
def State.memoryByte (s : State) (a : Nat) : Byte :=
  match get s.l2old (a / 128) with
  | some b => b.getD (a % 128) 0
  | none => memGet s.mem a

/-- An n-byte number in HBM4E as the memory controller holds it. -/
def State.memoryNat (s : State) (a n : Nat) : Nat := ofBytes ((List.range n).map fun i => s.memoryByte (a + i))

/-- The element and scale patterns of an element of a window (R172): the raw element is packed by R144. -/
def State.rawElement (s : State) (w : List DWord) (i : Nat) : Nat × Nat :=
  let ctl := (w.getD 0 0).toNat
  let vb := bitsOf 4 4 ctl == 1
  let n := if vb then 128 else 32
  let pbits := formatBits (bitsOf 4 0 ctl)
  let pos := i % n * pbits
  let base := bitsOf 36 16 (w.getD 1 0).toNat * 65536 + i / n * (n * pbits / 8)
  let sc := bitsOf 36 16 (w.getD 2 0).toNat * 65536
  (s.memoryNat (base + pos / 8) 2 / 2 ^ (pos % 8) % 2 ^ pbits,
   if vb then s.memoryNat (sc + 4 * (i / n)) 4 % 2 ^ 20 else s.memoryNat (sc + i / n) 1)

/-- A byte of the decode aperture as the memory controller decodes it (R172, R174). -/
def State.decodedByte (s : State) (part : Option Nat) (pa : Nat) : Byte :=
  match s.windowOf part pa with
  | none => 0xFF
  | some w =>
    let o := pa - bitsOf 36 16 (w.getD 3 0).toNat * 65536
    let ctl := (w.getD 0 0).toNat
    let e := s.rawElement w (o / 2)
    BitVec.ofNat 8 (decodeElem (bitsOf 4 4 ctl == 1) (bitsOf 4 0 ctl) e.2 e.1 / 2 ^ (8 * (o % 2)))

end Sys2Proof.Machine
end

