-- ==== Sys2Proof/Decode.lean ====
section
/-! DEFINITION. The decoder and the encoder of instruction words (R34, R36, R37, R49 to R51). The decoder splits a
word into the fields of its format and rejects only a word whose opcode no row has; the checks of Table 10 on the
fields of a decoded word stand in Machine/Check.lean, as they depend on the kernel's header. -/

namespace Sys2Proof

/-- Fields of formats L3 and U3 (R37). -/
def fmt3 (w : Nat) : Fmt3 :=
  { nw := flag 23 w, g := field 3 20 w, neg := flag 19 w, a := field 6 13 w, b := field 6 7 w, d := field 6 1 w,
    x := flag 0 w }

/-- Fields of formats L4 and U4 (R37). -/
def fmt4 (w : Nat) : Fmt4 :=
  { nw := flag 23 w, g := field 3 20 w, neg := flag 19 w, a := field 6 13 w, b := field 6 7 w, c := field 6 1 w,
    x := flag 0 w }

/-- Fields of formats LI and UI (R37). -/
def fmtI (w : Nat) : FmtI :=
  { nw := flag 23 w, g := field 3 20 w, neg := flag 19 w, a := field 6 13 w, imm := field 13 0 w }

/-- Fields of format LP (R37). -/
def fmtP (w : Nat) : FmtP :=
  { r := flag 23 w, g := field 3 20 w, neg := flag 19 w, a := field 6 13 w, b := field 6 7 w, dp := field 3 4 w,
    cc := field 3 1 w, x := flag 0 w }

/-- Fields of format CV (R37). -/
def fmtV (w : Nat) : FmtV :=
  { nw := flag 23 w, g := field 3 20 w, neg := flag 19 w, a := field 6 13 w, sf := field 4 9 w, df := field 4 5 w,
    rm := field 3 2 w, sat := flag 1 w, x := flag 0 w }

/-- Fields of format LM (R37). -/
def fmtM (w : Nat) : FmtM :=
  { r := flag 23 w, g := field 3 20 w, neg := flag 19 w, a := field 6 13 w, b := field 6 7 w, base := field 4 3 w,
    f := field 3 0 w }

/-- Fields of format LC (R37). -/
def fmtL (w : Nat) : FmtL :=
  { r := flag 23 w, g := field 3 20 w, neg := flag 19 w, a := field 6 13 w, imm := field 13 0 w }

/-- Fields of format UB (R37). -/
def fmtB (w : Nat) : FmtB := { g := field 3 21 w, neg := flag 20 w, off := field 20 0 w }

/-- Row 0x0_ of Table 7 (R49): the low digit of the opcode and the word. -/
def laneRows0 (lo w : Nat) : Option Instr :=
  match lo with
  | 0x0 => some (.nop (field 24 0 w))
  | 0x1 => some (.if_ (fmtL w))
  | 0x2 => some (.else_ (fmtL w))
  | 0x3 => some (.endif (fmtL w))
  | 0x4 => some (.do_ (fmtL w))
  | 0x5 => some (.enddo (fmtL w))
  | 0x6 => some (.brk (fmtL w))
  | 0x7 => some (.cont (fmtL w))
  | 0x8 => some (.brx (fmtL w))
  | 0x9 => some (.rcv (fmtL w))
  | 0xA => some (.bar (fmtL w))
  | 0xB => some (.bara (fmtL w))
  | 0xC => some (.barw (fmtL w))
  | 0xD => some (.trig (fmtL w))
  | 0xE => some (.yield (fmtL w))
  | 0xF => some (.exit (fmtL w))
  | _ => none

/-- Row 0x1_ of Table 7 (R49): the low digit of the opcode and the word. -/
def laneRows1 (lo w : Nat) : Option Instr :=
  match lo with
  | 0x0 => some (.mov (fmt3 w))
  | 0x1 => some (.movi (fmtI w))
  | 0x2 => some (.iadd (fmt3 w))
  | 0x3 => some (.isub (fmt3 w))
  | 0x4 => some (.imul (fmt3 w))
  | 0x5 => some (.imulh (fmt3 w))
  | 0x6 => some (.imad (fmt4 w))
  | 0x7 => some (.imin (fmt3 w))
  | 0x8 => some (.imax (fmt3 w))
  | 0x9 => some (.iabs (fmt3 w))
  | 0xA => some (.addi (fmtI w))
  | 0xB => some (.and (fmt3 w))
  | 0xC => some (.or (fmt3 w))
  | 0xD => some (.xor (fmt3 w))
  | 0xE => some (.andn (fmt3 w))
  | 0xF => some (.andi (fmtI w))
  | _ => none

/-- Row 0x2_ of Table 7 (R49): the low digit of the opcode and the word. -/
def laneRows2 (lo w : Nat) : Option Instr :=
  match lo with
  | 0x0 => some (.ori (fmtI w))
  | 0x1 => some (.xori (fmtI w))
  | 0x2 => some (.shl (fmt3 w))
  | 0x3 => some (.shr (fmt3 w))
  | 0x4 => some (.sar (fmt3 w))
  | 0x5 => some (.rot (fmt3 w))
  | 0x6 => some (.shli (fmtI w))
  | 0x7 => some (.shri (fmtI w))
  | 0x8 => some (.sari (fmtI w))
  | 0x9 => some (.popc (fmt3 w))
  | 0xA => some (.clz (fmt3 w))
  | 0xB => some (.brev (fmt3 w))
  | 0xC => some (.bfx (fmt3 w))
  | 0xD => some (.bfi (fmt4 w))
  | 0xE => some (.redx (fmt3 w))
  | 0xF => some (.scan (fmt3 w))
  | _ => none

/-- Row 0x3_ of Table 7 (R49): the low digit of the opcode and the word. -/
def laneRows3 (lo w : Nat) : Option Instr :=
  match lo with
  | 0x0 => some (.icmpW (fmtP w))
  | 0x1 => some (.icmpH2 (fmtP w))
  | 0x2 => some (.icmpB4 (fmtP w))
  | 0x3 => some (.fcmp (fmtP w))
  | 0x4 => some (.bcmp2 (fmtP w))
  | 0x5 => some (.plog (fmtP w))
  | 0x6 => some (.pset (fmtP w))
  | 0x7 => some (.pget (fmt3 w))
  | 0x8 => some (.sel (fmt4 w))
  | 0x9 => some (.shfl (fmt3 w))
  | 0xA => some (.shflup (fmt3 w))
  | 0xB => some (.shfldn (fmt3 w))
  | 0xC => some (.shflx (fmt3 w))
  | 0xD => some (.vote (fmt3 w))
  | 0xE => some (.match_ (fmt3 w))
  | _ => none

/-- Row 0x4_ of Table 7 (R49): the low digit of the opcode and the word. -/
def laneRows4 (lo w : Nat) : Option Instr :=
  match lo with
  | 0x0 => some (.fadd (fmt3 w))
  | 0x1 => some (.fsub (fmt3 w))
  | 0x2 => some (.fmul (fmt3 w))
  | 0x3 => some (.ffma (fmt4 w))
  | 0x4 => some (.fmin (fmt3 w))
  | 0x5 => some (.fmax (fmt3 w))
  | 0x6 => some (.badd2 (fmt3 w))
  | 0x7 => some (.bmul2 (fmt3 w))
  | 0x8 => some (.bfma2 (fmt4 w))
  | 0x9 => some (.hadd2 (fmt3 w))
  | 0xA => some (.hmul2 (fmt3 w))
  | 0xB => some (.hfma2 (fmt4 w))
  | 0xC => some (.frcp (fmt3 w))
  | 0xD => some (.frsq (fmt3 w))
  | 0xE => some (.fsqrt (fmt3 w))
  | 0xF => some (.fexp2 (fmt3 w))
  | _ => none

/-- Row 0x5_ of Table 7 (R49): the low digit of the opcode and the word. -/
def laneRows5 (lo w : Nat) : Option Instr :=
  match lo with
  | 0x0 => some (.flog2 (fmt3 w))
  | 0x1 => some (.fsin (fmt3 w))
  | 0x2 => some (.fcos (fmt3 w))
  | 0x3 => some (.ftanh (fmt3 w))
  | 0x4 => some (.cvt (fmtV w))
  | 0x5 => some (.cvtp (fmtV w))
  | 0x6 => some (.cvtu (fmtV w))
  | 0x7 => some (.frnd (fmtV w))
  | 0x8 => some (.i2f (fmtV w))
  | 0x9 => some (.f2i (fmtV w))
  | 0xA => some (.mxq (fmtV w))
  | 0xB => some (.mxd (fmtV w))
  | 0xC => some (.dot4 (fmt4 w))
  | _ => none

/-- Row 0x6_ of Table 7 (R49): the low digit of the opcode and the word. -/
def laneRows6 (lo w : Nat) : Option Instr :=
  match lo with
  | 0x0 => some (.lds (fmtM w))
  | 0x1 => some (.sts (fmtM w))
  | 0x2 => some (.ats (fmtM w))
  | 0x4 => some (.fpush (fmtM w))
  | 0x5 => some (.fpop (fmtM w))
  | 0x6 => some (.fpeek (fmtM w))
  | 0x7 => some (.pref (fmtM w))
  | 0x8 => some (.waitc (fmtL w))
  | 0xC => some (.ldg (fmtM w))
  | 0xD => some (.ldga (fmtM w))
  | 0xE => some (.stg (fmtM w))
  | 0xF => some (.stgl (fmtM w))
  | _ => none

/-- Row 0x7_ of Table 7 (R49): the low digit of the opcode and the word. -/
def laneRows7 (lo w : Nat) : Option Instr :=
  match lo with
  | 0x0 => some (.atgCore (fmtM w))
  | 0x1 => some (.atgClus (fmtM w))
  | 0x2 => some (.atgDie (fmtM w))
  | 0x3 => some (.atgPkg (fmtM w))
  | 0x4 => some (.atgSys (fmtM w))
  | 0x5 => some (.redgDie (fmtM w))
  | 0x6 => some (.redgPkg (fmtM w))
  | 0x7 => some (.redgSys (fmtM w))
  | 0x8 => some (.spawn (fmt3 w))
  | 0x9 => some (.spawnt (fmt3 w))
  | 0xA => some (.tagset (fmt3 w))
  | 0xB => some (.tagv (fmt3 w))
  | 0xE => some (.rdlane (fmt3 w))
  | 0xF => some (.wrlane (fmt3 w))
  | _ => none

/-- Table 7 (R49): the opcode and the word. -/
def laneRows (op w : Nat) : Option Instr :=
  match op / 16 with
  | 0 => laneRows0 (op % 16) w
  | 1 => laneRows1 (op % 16) w
  | 2 => laneRows2 (op % 16) w
  | 3 => laneRows3 (op % 16) w
  | 4 => laneRows4 (op % 16) w
  | 5 => laneRows5 (op % 16) w
  | 6 => laneRows6 (op % 16) w
  | 7 => laneRows7 (op % 16) w
  | _ => none

/-- Row 0x0_ of Table 8 (R50): the low digit of the opcode and the word. -/
def unifRows0 (lo w : Nat) : Option Instr :=
  match lo with
  | 0x0 => some (.bra (fmtB w))
  | 0x1 => some (.call (fmtB w))
  | 0x2 => some (.calli (fmt3 w))
  | 0x3 => some (.ret (fmt3 w))
  | 0x4 => some (.hloop (fmtI w))
  | 0x5 => some (.bri (fmt3 w))
  | 0x6 => some (.gang (fmt3 w))
  | _ => none

/-- Row 0x1_ of Table 8 (R50): the low digit of the opcode and the word. -/
def unifRows1 (lo w : Nat) : Option Instr :=
  match lo with
  | 0x0 => some (.umov (fmt3 w))
  | 0x1 => some (.uldk (fmt3 w) 0 0)
  | 0x2 => some (.uadd (fmt3 w))
  | 0x3 => some (.usub (fmt3 w))
  | 0x4 => some (.umul (fmt3 w))
  | 0x5 => some (.umulh (fmt3 w))
  | 0x6 => some (.umad (fmt4 w))
  | 0x7 => some (.uand (fmt3 w))
  | 0x8 => some (.uor (fmt3 w))
  | 0x9 => some (.uxor (fmt3 w))
  | 0xA => some (.ushl (fmt3 w))
  | 0xB => some (.ushr (fmt3 w))
  | 0xC => some (.usar (fmt3 w))
  | 0xD => some (.uaddi (fmtI w))
  | 0xE => some (.uandi (fmtI w))
  | 0xF => some (.ushli (fmtI w))
  | _ => none

/-- Row 0x2_ of Table 8 (R50): the low digit of the opcode and the word. UPLOG is 0x26, as the opcode table
and the last sentence of R121 have it; 0x36, which its first sentence names, is no uniform opcode (DEDUCED, log entry 86). -/
def unifRows2 (lo w : Nat) : Option Instr :=
  match lo with
  | 0x0 => some (.ushri (fmtI w))
  | 0x1 => some (.umin (fmt3 w))
  | 0x2 => some (.umax (fmt3 w))
  | 0x3 => some (.upopc (fmt3 w))
  | 0x4 => some (.uclz (fmt3 w))
  | 0x5 => some (.ucmp (fmtP w))
  | 0x6 => some (.uplog (fmtP w))
  | 0x7 => some (.usel (fmt4 w))
  | 0x8 => some (.mfs (fmtI w))
  | 0x9 => some (.mts (fmtI w))
  | _ => none

/-- Row 0x3_ of Table 8 (R50): the low digit of the opcode and the word. -/
def unifRows3 (lo w : Nat) : Option Instr :=
  match lo with
  | 0x0 => some (.join (fmt3 w))
  | 0x1 => some (.ftest (fmt3 w))
  | 0x2 => some (.fcancel (fmt3 w))
  | 0x3 => some (.texit (fmt3 w))
  | 0x4 => some (.dqlen (fmt3 w))
  | 0x5 => some (.tself (fmt3 w))
  | _ => none

/-- Row 0x4_ of Table 8 (R50): the low digit of the opcode and the word. -/
def unifRows4 (lo w : Nat) : Option Instr :=
  match lo with
  | 0x0 => some (.ldu (fmtM w))
  | 0x1 => some (.stu (fmtM w))
  | 0x2 => some (.atu (fmtM w))
  | 0x3 => some (.rwb (fmt3 w))
  | 0x4 => some (.rinv (fmt3 w))
  | 0x5 => some (.rwbi (fmt3 w))
  | 0x6 => some (.fence (fmtI w))
  | 0x7 => some (.xpub (fmt3 w))
  | 0x8 => some (.waitv (fmt4 w))
  | 0x9 => some (.qfence (fmtI w))
  | 0xA => some (.xprobe (fmt3 w))
  | _ => none

/-- Row 0x5_ of Table 8 (R50): the low digit of the opcode and the word. -/
def unifRows5 (lo w : Nat) : Option Instr :=
  match lo with
  | 0x0 => some (.cpy (fmt4 w))
  | 0x1 => some (.cpy2d (fmt4 w))
  | 0x2 => some (.coll (fmt4 w))
  | 0x3 => some (.eqstat (fmt3 w))
  | _ => none

/-- Row 0x6_ of Table 8 (R50): the low digit of the opcode and the word. -/
def unifRows6 (lo w : Nat) : Option Instr :=
  match lo with
  | 0x0 => some (.mma (fmt4 w))
  | 0x1 => some (.mmat (fmt4 w))
  | 0x2 => some (.mperm (fmt4 w))
  | 0x3 => some (.mred (fmt4 w))
  | 0x4 => some (.mload (fmt3 w))
  | 0x5 => some (.mstore (fmt3 w))
  | 0x6 => some (.mres (fmt3 w))
  | 0x7 => some (.mresq (fmt3 w))
  | 0x8 => some (.mfence (fmt3 w))
  | 0x9 => some (.mwait (fmtI w))
  | 0xA => some (.mgrad (fmt4 w))
  | 0xB => some (.mzero (fmt3 w))
  | _ => none

/-- Row 0x7_ of Table 8 (R50): the low digit of the opcode and the word. -/
def unifRows7 (lo w : Nat) : Option Instr :=
  match lo with
  | 0x0 => some (.trap (fmtI w))
  | 0x1 => some (.eret (fmt3 w))
  | 0x2 => some (.savec (fmt3 w))
  | 0x3 => some (.rstc (fmt3 w))
  | 0x4 => some (.sigs (fmt3 w))
  | 0x5 => some (.bkpt (fmt3 w))
  | 0x6 => some (.bankset (fmt3 w))
  | 0x7 => some (.bankq (fmt3 w))
  | 0x8 => some (.lvcall (fmt3 w))
  | 0x9 => some (.lvret (fmt3 w))
  | 0xA => some (.rgset (fmt3 w))
  | _ => none

/-- Table 8 (R50): the opcode and the word. -/
def unifRows (op w : Nat) : Option Instr :=
  match op / 16 with
  | 0 => unifRows0 (op % 16) w
  | 1 => unifRows1 (op % 16) w
  | 2 => unifRows2 (op % 16) w
  | 3 => unifRows3 (op % 16) w
  | 4 => unifRows4 (op % 16) w
  | 5 => unifRows5 (op % 16) w
  | 6 => unifRows6 (op % 16) w
  | 7 => unifRows7 (op % 16) w
  | _ => none

/-- The instruction of one word, none where its opcode is unassigned (R49, R50); an ULDK stands with no literal yet. -/
def decodeHead (w : Nat) : Option Instr :=
  if flag 31 w then unifRows (bitsOf 7 24 w) w else laneRows (bitsOf 7 24 w) w

/-- How many literal words follow the instruction (R36). -/
def Instr.literals : Instr → Nat
  | .uldk f _ _ => if f.x then 2 else 1
  | _ => 0

/-- The instruction with its literal words (R36). -/
def Instr.withLiterals (i : Instr) (l0 l1 : Word) : Instr :=
  match i with
  | .uldk f _ _ => .uldk f l0 (if f.x then l1 else 0)
  | j => j

/-- Why bytes decode to no instruction. -/
inductive DecodeError where
  /-- The bytes end before the instruction does. -/
  | truncated
  /-- The opcode is marked with a dash in Table 7 or Table 8 (R49, R50, R53). -/
  | illegalOpcode
  deriving DecidableEq, Repr

/-- The instruction at the head of a list of bytes, with the bytes after it: total, and a refusal is named (R34, R36). -/
def decode : List Byte → Except DecodeError (Instr × List Byte)
  | b0 :: b1 :: b2 :: b3 :: r =>
    match decodeHead (ofBytes [b0, b1, b2, b3]) with
    | none => .error .illegalOpcode
    | some i =>
      match i.literals with
      | 0 => .ok (i, r)
      | 1 => if r.length < 4 then .error .truncated
             else .ok (i.withLiterals (BitVec.ofNat 32 (ofBytes (r.take 4))) 0, r.drop 4)
      | _ => if r.length < 8 then .error .truncated
             else .ok (i.withLiterals (BitVec.ofNat 32 (ofBytes (r.take 4)))
               (BitVec.ofNat 32 (ofBytes ((r.drop 4).take 4))), r.drop 8)
  | _ => .error .truncated

/-- The instruction of a table word of nbits bits, every bit above them 0. An event row has no word (nbits = 0). -/
def decodeTableWord (nbits w : Nat) : Option Instr :=
  if nbits = 0 then none
  else
    match decode (toBytes 12 (w % 2 ^ nbits)) with
    | .ok (i, _) => some i
    | .error _ => none

/-- Bits [23:0] of formats L3 and U3 (R37). -/
def enc3 (f : Fmt3) : Nat :=
  bit f.nw * 2 ^ 23 + f.g.toNat * 2 ^ 20 + bit f.neg * 2 ^ 19 + f.a.toNat * 2 ^ 13 + f.b.toNat * 2 ^ 7 +
    f.d.toNat * 2 + bit f.x

/-- Bits [23:0] of formats L4 and U4 (R37). -/
def enc4 (f : Fmt4) : Nat :=
  bit f.nw * 2 ^ 23 + f.g.toNat * 2 ^ 20 + bit f.neg * 2 ^ 19 + f.a.toNat * 2 ^ 13 + f.b.toNat * 2 ^ 7 +
    f.c.toNat * 2 + bit f.x

/-- Bits [23:0] of formats LI and UI (R37). -/
def encI (f : FmtI) : Nat :=
  bit f.nw * 2 ^ 23 + f.g.toNat * 2 ^ 20 + bit f.neg * 2 ^ 19 + f.a.toNat * 2 ^ 13 + f.imm.toNat

/-- Bits [23:0] of format LP (R37). -/
def encP (f : FmtP) : Nat :=
  bit f.r * 2 ^ 23 + f.g.toNat * 2 ^ 20 + bit f.neg * 2 ^ 19 + f.a.toNat * 2 ^ 13 + f.b.toNat * 2 ^ 7 +
    f.dp.toNat * 2 ^ 4 + f.cc.toNat * 2 + bit f.x

/-- Bits [23:0] of format CV (R37). -/
def encV (f : FmtV) : Nat :=
  bit f.nw * 2 ^ 23 + f.g.toNat * 2 ^ 20 + bit f.neg * 2 ^ 19 + f.a.toNat * 2 ^ 13 + f.sf.toNat * 2 ^ 9 +
    f.df.toNat * 2 ^ 5 + f.rm.toNat * 2 ^ 2 + bit f.sat * 2 + bit f.x

/-- Bits [23:0] of format LM (R37). -/
def encM (f : FmtM) : Nat :=
  bit f.r * 2 ^ 23 + f.g.toNat * 2 ^ 20 + bit f.neg * 2 ^ 19 + f.a.toNat * 2 ^ 13 + f.b.toNat * 2 ^ 7 +
    f.base.toNat * 2 ^ 3 + f.f.toNat

/-- Bits [23:0] of format LC (R37). -/
def encL (f : FmtL) : Nat :=
  bit f.r * 2 ^ 23 + f.g.toNat * 2 ^ 20 + bit f.neg * 2 ^ 19 + f.a.toNat * 2 ^ 13 + f.imm.toNat

/-- Bits [23:0] of format UB (R37). -/
def encB (f : FmtB) : Nat := f.g.toNat * 2 ^ 21 + bit f.neg * 2 ^ 20 + f.off.toNat

/-- A word from its set, opcode and bits [23:0] (R34). -/
def opWord (set op low : Nat) : Nat := set * 2 ^ 31 + op * 2 ^ 24 + low

/-- The instruction word of an instruction, its literal words aside; none for an event, which no word names. -/
def encodeHead : Instr → Option Nat
  | .nop z => some (opWord 0 0x00 z.toNat)
  | .if_ f => some (opWord 0 0x01 (encL f))
  | .else_ f => some (opWord 0 0x02 (encL f))
  | .endif f => some (opWord 0 0x03 (encL f))
  | .do_ f => some (opWord 0 0x04 (encL f))
  | .enddo f => some (opWord 0 0x05 (encL f))
  | .brk f => some (opWord 0 0x06 (encL f))
  | .cont f => some (opWord 0 0x07 (encL f))
  | .brx f => some (opWord 0 0x08 (encL f))
  | .rcv f => some (opWord 0 0x09 (encL f))
  | .bar f => some (opWord 0 0x0A (encL f))
  | .bara f => some (opWord 0 0x0B (encL f))
  | .barw f => some (opWord 0 0x0C (encL f))
  | .trig f => some (opWord 0 0x0D (encL f))
  | .yield f => some (opWord 0 0x0E (encL f))
  | .exit f => some (opWord 0 0x0F (encL f))
  | .mov f => some (opWord 0 0x10 (enc3 f))
  | .movi f => some (opWord 0 0x11 (encI f))
  | .iadd f => some (opWord 0 0x12 (enc3 f))
  | .isub f => some (opWord 0 0x13 (enc3 f))
  | .imul f => some (opWord 0 0x14 (enc3 f))
  | .imulh f => some (opWord 0 0x15 (enc3 f))
  | .imad f => some (opWord 0 0x16 (enc4 f))
  | .imin f => some (opWord 0 0x17 (enc3 f))
  | .imax f => some (opWord 0 0x18 (enc3 f))
  | .iabs f => some (opWord 0 0x19 (enc3 f))
  | .addi f => some (opWord 0 0x1A (encI f))
  | .and f => some (opWord 0 0x1B (enc3 f))
  | .or f => some (opWord 0 0x1C (enc3 f))
  | .xor f => some (opWord 0 0x1D (enc3 f))
  | .andn f => some (opWord 0 0x1E (enc3 f))
  | .andi f => some (opWord 0 0x1F (encI f))
  | .ori f => some (opWord 0 0x20 (encI f))
  | .xori f => some (opWord 0 0x21 (encI f))
  | .shl f => some (opWord 0 0x22 (enc3 f))
  | .shr f => some (opWord 0 0x23 (enc3 f))
  | .sar f => some (opWord 0 0x24 (enc3 f))
  | .rot f => some (opWord 0 0x25 (enc3 f))
  | .shli f => some (opWord 0 0x26 (encI f))
  | .shri f => some (opWord 0 0x27 (encI f))
  | .sari f => some (opWord 0 0x28 (encI f))
  | .popc f => some (opWord 0 0x29 (enc3 f))
  | .clz f => some (opWord 0 0x2A (enc3 f))
  | .brev f => some (opWord 0 0x2B (enc3 f))
  | .bfx f => some (opWord 0 0x2C (enc3 f))
  | .bfi f => some (opWord 0 0x2D (enc4 f))
  | .redx f => some (opWord 0 0x2E (enc3 f))
  | .scan f => some (opWord 0 0x2F (enc3 f))
  | .icmpW f => some (opWord 0 0x30 (encP f))
  | .icmpH2 f => some (opWord 0 0x31 (encP f))
  | .icmpB4 f => some (opWord 0 0x32 (encP f))
  | .fcmp f => some (opWord 0 0x33 (encP f))
  | .bcmp2 f => some (opWord 0 0x34 (encP f))
  | .plog f => some (opWord 0 0x35 (encP f))
  | .pset f => some (opWord 0 0x36 (encP f))
  | .pget f => some (opWord 0 0x37 (enc3 f))
  | .sel f => some (opWord 0 0x38 (enc4 f))
  | .shfl f => some (opWord 0 0x39 (enc3 f))
  | .shflup f => some (opWord 0 0x3A (enc3 f))
  | .shfldn f => some (opWord 0 0x3B (enc3 f))
  | .shflx f => some (opWord 0 0x3C (enc3 f))
  | .vote f => some (opWord 0 0x3D (enc3 f))
  | .match_ f => some (opWord 0 0x3E (enc3 f))
  | .fadd f => some (opWord 0 0x40 (enc3 f))
  | .fsub f => some (opWord 0 0x41 (enc3 f))
  | .fmul f => some (opWord 0 0x42 (enc3 f))
  | .ffma f => some (opWord 0 0x43 (enc4 f))
  | .fmin f => some (opWord 0 0x44 (enc3 f))
  | .fmax f => some (opWord 0 0x45 (enc3 f))
  | .badd2 f => some (opWord 0 0x46 (enc3 f))
  | .bmul2 f => some (opWord 0 0x47 (enc3 f))
  | .bfma2 f => some (opWord 0 0x48 (enc4 f))
  | .hadd2 f => some (opWord 0 0x49 (enc3 f))
  | .hmul2 f => some (opWord 0 0x4A (enc3 f))
  | .hfma2 f => some (opWord 0 0x4B (enc4 f))
  | .frcp f => some (opWord 0 0x4C (enc3 f))
  | .frsq f => some (opWord 0 0x4D (enc3 f))
  | .fsqrt f => some (opWord 0 0x4E (enc3 f))
  | .fexp2 f => some (opWord 0 0x4F (enc3 f))
  | .flog2 f => some (opWord 0 0x50 (enc3 f))
  | .fsin f => some (opWord 0 0x51 (enc3 f))
  | .fcos f => some (opWord 0 0x52 (enc3 f))
  | .ftanh f => some (opWord 0 0x53 (enc3 f))
  | .cvt f => some (opWord 0 0x54 (encV f))
  | .cvtp f => some (opWord 0 0x55 (encV f))
  | .cvtu f => some (opWord 0 0x56 (encV f))
  | .frnd f => some (opWord 0 0x57 (encV f))
  | .i2f f => some (opWord 0 0x58 (encV f))
  | .f2i f => some (opWord 0 0x59 (encV f))
  | .mxq f => some (opWord 0 0x5A (encV f))
  | .mxd f => some (opWord 0 0x5B (encV f))
  | .dot4 f => some (opWord 0 0x5C (enc4 f))
  | .lds f => some (opWord 0 0x60 (encM f))
  | .sts f => some (opWord 0 0x61 (encM f))
  | .ats f => some (opWord 0 0x62 (encM f))
  | .fpush f => some (opWord 0 0x64 (encM f))
  | .fpop f => some (opWord 0 0x65 (encM f))
  | .fpeek f => some (opWord 0 0x66 (encM f))
  | .pref f => some (opWord 0 0x67 (encM f))
  | .waitc f => some (opWord 0 0x68 (encL f))
  | .ldg f => some (opWord 0 0x6C (encM f))
  | .ldga f => some (opWord 0 0x6D (encM f))
  | .stg f => some (opWord 0 0x6E (encM f))
  | .stgl f => some (opWord 0 0x6F (encM f))
  | .atgCore f => some (opWord 0 0x70 (encM f))
  | .atgClus f => some (opWord 0 0x71 (encM f))
  | .atgDie f => some (opWord 0 0x72 (encM f))
  | .atgPkg f => some (opWord 0 0x73 (encM f))
  | .atgSys f => some (opWord 0 0x74 (encM f))
  | .redgDie f => some (opWord 0 0x75 (encM f))
  | .redgPkg f => some (opWord 0 0x76 (encM f))
  | .redgSys f => some (opWord 0 0x77 (encM f))
  | .spawn f => some (opWord 0 0x78 (enc3 f))
  | .spawnt f => some (opWord 0 0x79 (enc3 f))
  | .tagset f => some (opWord 0 0x7A (enc3 f))
  | .tagv f => some (opWord 0 0x7B (enc3 f))
  | .rdlane f => some (opWord 0 0x7E (enc3 f))
  | .wrlane f => some (opWord 0 0x7F (enc3 f))
  | .bra f => some (opWord 1 0x00 (encB f))
  | .call f => some (opWord 1 0x01 (encB f))
  | .calli f => some (opWord 1 0x02 (enc3 f))
  | .ret f => some (opWord 1 0x03 (enc3 f))
  | .hloop f => some (opWord 1 0x04 (encI f))
  | .bri f => some (opWord 1 0x05 (enc3 f))
  | .gang f => some (opWord 1 0x06 (enc3 f))
  | .umov f => some (opWord 1 0x10 (enc3 f))
  | .uldk f _ _ => some (opWord 1 0x11 (enc3 f))
  | .uadd f => some (opWord 1 0x12 (enc3 f))
  | .usub f => some (opWord 1 0x13 (enc3 f))
  | .umul f => some (opWord 1 0x14 (enc3 f))
  | .umulh f => some (opWord 1 0x15 (enc3 f))
  | .umad f => some (opWord 1 0x16 (enc4 f))
  | .uand f => some (opWord 1 0x17 (enc3 f))
  | .uor f => some (opWord 1 0x18 (enc3 f))
  | .uxor f => some (opWord 1 0x19 (enc3 f))
  | .ushl f => some (opWord 1 0x1A (enc3 f))
  | .ushr f => some (opWord 1 0x1B (enc3 f))
  | .usar f => some (opWord 1 0x1C (enc3 f))
  | .uaddi f => some (opWord 1 0x1D (encI f))
  | .uandi f => some (opWord 1 0x1E (encI f))
  | .ushli f => some (opWord 1 0x1F (encI f))
  | .ushri f => some (opWord 1 0x20 (encI f))
  | .umin f => some (opWord 1 0x21 (enc3 f))
  | .umax f => some (opWord 1 0x22 (enc3 f))
  | .upopc f => some (opWord 1 0x23 (enc3 f))
  | .uclz f => some (opWord 1 0x24 (enc3 f))
  | .ucmp f => some (opWord 1 0x25 (encP f))
  | .uplog f => some (opWord 1 0x26 (encP f))
  | .usel f => some (opWord 1 0x27 (enc4 f))
  | .mfs f => some (opWord 1 0x28 (encI f))
  | .mts f => some (opWord 1 0x29 (encI f))
  | .join f => some (opWord 1 0x30 (enc3 f))
  | .ftest f => some (opWord 1 0x31 (enc3 f))
  | .fcancel f => some (opWord 1 0x32 (enc3 f))
  | .texit f => some (opWord 1 0x33 (enc3 f))
  | .dqlen f => some (opWord 1 0x34 (enc3 f))
  | .tself f => some (opWord 1 0x35 (enc3 f))
  | .ldu f => some (opWord 1 0x40 (encM f))
  | .stu f => some (opWord 1 0x41 (encM f))
  | .atu f => some (opWord 1 0x42 (encM f))
  | .rwb f => some (opWord 1 0x43 (enc3 f))
  | .rinv f => some (opWord 1 0x44 (enc3 f))
  | .rwbi f => some (opWord 1 0x45 (enc3 f))
  | .fence f => some (opWord 1 0x46 (encI f))
  | .xpub f => some (opWord 1 0x47 (enc3 f))
  | .waitv f => some (opWord 1 0x48 (enc4 f))
  | .qfence f => some (opWord 1 0x49 (encI f))
  | .xprobe f => some (opWord 1 0x4A (enc3 f))
  | .cpy f => some (opWord 1 0x50 (enc4 f))
  | .cpy2d f => some (opWord 1 0x51 (enc4 f))
  | .coll f => some (opWord 1 0x52 (enc4 f))
  | .eqstat f => some (opWord 1 0x53 (enc3 f))
  | .mma f => some (opWord 1 0x60 (enc4 f))
  | .mmat f => some (opWord 1 0x61 (enc4 f))
  | .mperm f => some (opWord 1 0x62 (enc4 f))
  | .mred f => some (opWord 1 0x63 (enc4 f))
  | .mload f => some (opWord 1 0x64 (enc3 f))
  | .mstore f => some (opWord 1 0x65 (enc3 f))
  | .mres f => some (opWord 1 0x66 (enc3 f))
  | .mresq f => some (opWord 1 0x67 (enc3 f))
  | .mfence f => some (opWord 1 0x68 (enc3 f))
  | .mwait f => some (opWord 1 0x69 (encI f))
  | .mgrad f => some (opWord 1 0x6A (enc4 f))
  | .mzero f => some (opWord 1 0x6B (enc3 f))
  | .trap f => some (opWord 1 0x70 (encI f))
  | .eret f => some (opWord 1 0x71 (enc3 f))
  | .savec f => some (opWord 1 0x72 (enc3 f))
  | .rstc f => some (opWord 1 0x73 (enc3 f))
  | .sigs f => some (opWord 1 0x74 (enc3 f))
  | .bkpt f => some (opWord 1 0x75 (enc3 f))
  | .bankset f => some (opWord 1 0x76 (enc3 f))
  | .bankq f => some (opWord 1 0x77 (enc3 f))
  | .lvcall f => some (opWord 1 0x78 (enc3 f))
  | .lvret f => some (opWord 1 0x79 (enc3 f))
  | .rgset f => some (opWord 1 0x7A (enc3 f))
  | .loadReturn _ _ _ _ => none
  | .writePerformed _ _ _ _ => none
  | .asyncDelivery _ _ => none
  | .barrierPhaseComplete _ _ => none
  | .joinResume _ _ _ => none
  | .waitvWake _ _ _ => none
  | .ringPerform _ _ _ => none
  | .slotRelease _ _ => none
  | .slotReturn _ _ => none
  | .ownerPop _ _ => none
  | .stealRequest _ => none
  | .stealRotation _ _ => none
  | .stealAnswer _ _ => none
  | .closureArrival _ _ => none
  | .stageAhead _ _ => none
  | .tileLoadDone _ _ _ => none
  | .taskStart _ _ => none
  | .storerDone _ _ => none
  | .loaderRequest _ _ _ => none
  | .tenantSwitch _ _ => none
  | .leaseExpiry _ _ => none
  | .revokeProbe _ _ => none
  | .coherenceProbe _ _ _ => none
  | .remoteWriteApply _ _ => none
  | .l2Eviction _ _ => none
  | .type1Fill _ _ _ => none
  | .hostSectorGrant _ _ _ => none
  | .fradonInbound _ _ _ _ => none
  | .engineAccept _ => none
  | .engineChunk _ => none
  | .engineResolve _ => none
  | .collPeerEnd _ => none
  | .gangRendezvous _ _ => none
  | .matrixRow _ => none
  | .arrayClear _ => none
  | .preemptRequest _ _ => none
  | .migrateRequest _ _ _ => none
  | .contextRestore _ _ _ => none
  | .debugStop _ _ => none
  | .debugResume _ _ => none
  | .debugStep _ _ => none
  | .notify _ _ => none
  | .wptrPoll _ => none
  | .skip _ => none
  | .flush _ => none
  | .flushDone _ => none
  | .pktNop _ => none
  | .launch _ => none
  | .copy _ => none
  | .pktColl _ => none
  | .pktWaitv _ => none
  | .signal _ => none
  | .andbar _ => none
  | .indirect _ => none
  | .graphDefine _ => none
  | .graphRun _ => none
  | .graphNodeStart _ _ => none
  | .packetCompletion _ => none
  | .workgroupPlace _ => none
  | .launchDepStart _ => none
  | .launchComplete _ => none
  | .queueCreate _ _ _ _ _ _ _ _ _ => none
  | .queueDestroy _ => none
  | .commSlotWrite _ _ _ _ => none
  | .stealMinWrite _ _ _ => none
  | .minresWrite _ _ => none
  | .registerWrite _ _ _ => none
  | .pctlWrite _ _ => none
  | .fwctlEnable _ _ _ => none
  | .fwctlDisable _ _ => none
  | .attachWrite _ _ => none
  | .thermhotWrite _ _ => none
  | .refusalLogClear _ _ => none
  | .accessRefusal _ _ _ _ _ => none
  | .shootdown _ _ => none
  | .shootdownComplete _ => none
  | .energyWindow _ => none
  | .retire _ => none
  | .merge _ _ => none
  | .split _ _ => none
  | .mergeDrainTimeout _ => none
  | .attestRequest _ _ => none
  | .attestDone _ => none
  | .powerGood _ _ _ => none
  | .portLinkChange _ _ => none
  | .powerLimit _ => none
  | .coreHot _ _ => none
  | .coreCool _ _ => none
  | .criticalReset _ => none

/-- The words of an instruction: its own and, for ULDK, its literal words (R36). -/
def encode (i : Instr) : List Word :=
  match encodeHead i with
  | none => []
  | some w =>
    match i with
    | .uldk f l0 l1 => if f.x then [BitVec.ofNat 32 w, l0, l1] else [BitVec.ofNat 32 w, l0]
    | _ => [BitVec.ofNat 32 w]

/-- The bytes of words as memory holds them: little-endian, the first word lowest (R34). -/
def wordBytes (ws : List Word) : List Byte := ws.flatMap fun w => toBytes 4 w.toNat

end Sys2Proof
end

