-- ==== Sys2Proof/Machine/Check.lean ====
section
/-! DEFINITION. The checks of Table 10 (R53, R54) on a decoded word: its operand codes (R41 to R43, R48), its fixed
fields (R38 to R40, and each entry's own), the switching class (R107) and the cause they raise. -/

namespace Sys2Proof

/-- What the checks depend on besides the word: the kernel's width, NV and NS (R43), whether the warp is in a handler
(R340), and whether the core is a firmware core (R35). -/
structure Env where
  width : Nat
  nv : Nat
  ns : Nat
  handler : Bool
  firmware : Bool
  deriving DecidableEq, Repr

/-- An operand field: its set (true for uniform), code and lowest word bit. -/
inductive Opnd where
  /-- A source code (R41). -/
  | src (uni : Bool) (code bit : Nat)
  /-- A destination code (R42). -/
  | dst (uni : Bool) (code bit : Nat)
  /-- A destination code of a run of registers (R221). -/
  | dstRun (uni : Bool) (code bit run : Nat)
  /-- A data source of a run of registers or queue entries (R221). -/
  | srcRun (uni : Bool) (code bit run : Nat)
  /-- A base register s0 to s15 (R48). -/
  | base (n bit : Nat)
  /-- The second source of SPAWN, read at width 16 only (R197). -/
  | srcIf16 (code bit : Nat)
  /-- The register or entry after a uniform source (R299). -/
  | next (code bit : Nat)
  deriving DecidableEq, Repr

/-- Special-register numbers that MFS reads (R138); 0x080 and 0x081 only on a firmware core. -/
def srReadable (fw : Bool) (n : Nat) : Bool :=
  n ≤ 0x003 || (0x010 ≤ n && n ≤ 0x016) || n == 0x020 || n == 0x021 || (0x030 ≤ n && n ≤ 0x033) || n == 0x040 ||
  n == 0x041 || n == 0x050 || (0x060 ≤ n && n ≤ 0x063) || (0x070 ≤ n && n ≤ 0x072) || (fw && (n == 0x080 || n == 0x081))

/-- Special-register numbers that MTS may name (R136, R138, R377): those not marked RO. -/
def srWritable (fw : Bool) (n : Nat) : Bool :=
  n == 0x021 || (0x030 ≤ n && n ≤ 0x033) || (0x060 ≤ n && n ≤ 0x063) || (0x070 ≤ n && n ≤ 0x072) || (fw && n == 0x081)

/-- Registers of one lane that a load or store of size f moves (R221). -/
def laneRun (f : BitVec 3) : Nat := if f == 5 then 2 else if f == 6 then 4 else 1

/-- Registers that a uniform load or store of size f moves (R252). -/
def uniRun (f : BitVec 3) : Nat := if f == 6 then 2 else 1

/-- Pairs of CVT (R162): two different formats among codes 0 to 7. -/
def pairCvt (s d : Nat) (_ : Bool) : Bool := s ≤ 7 && d ≤ 7 && s != d

/-- Pairs of CVTP (Table 9 of R163). -/
def pairCvtp (s d : Nat) (_ : Bool) : Bool :=
  (s == 0 && (d == 1 || d == 2)) || ((s == 1 || s == 2) && 3 ≤ d && d ≤ 6) || (s == 3 && d == 7) ||
  (s == 11 && d == 10) || (s == 10 && (d == 8 || d == 9))

/-- Pairs of CVTU (Table 10 of R164). -/
def pairCvtu (s d : Nat) (_ : Bool) : Bool :=
  ((s == 1 || s == 2) && d == 0) || (3 ≤ s && s ≤ 6 && (d == 1 || d == 2)) || (s == 7 && (d == 3 || d == 4)) ||
  (s == 10 && d == 11) || ((s == 8 || s == 9) && d == 10)

/-- Pairs of FRND (R165). -/
def pairFrnd (s d : Nat) (_ : Bool) : Bool := s == d && s ≤ 2

/-- Pairs of I2F (R166). -/
def pairI2f (s d : Nat) (_ : Bool) : Bool := 8 ≤ s && s ≤ 12 && d ≤ 2

/-- Pairs of F2I (R167). -/
def pairF2i (s d : Nat) (_ : Bool) : Bool := s ≤ 2 && 8 ≤ d && d ≤ 12

/-- Pairs of MXQ (R168): x chooses VB128. -/
def pairMxq (s d : Nat) (x : Bool) : Bool :=
  if x then s == 1 && (d == 3 || d == 7 || d == 8 || d == 14)
  else (s == 0 || s == 1) && ((3 ≤ d && d ≤ 8) || d == 13)

/-- Pairs of MXD (R169). -/
def pairMxd (s d : Nat) (x : Bool) : Bool :=
  d ≤ 1 && (if x then s == 3 || s == 7 || s == 8 else 3 ≤ s && s ≤ 8)

/-- Whether two format codes, neither of them reserved, form a pair that a table lists; a reserved code is its own field's
offence (R45, R54, R161). -/
def listedPair (f : FmtV) (pair : Nat → Nat → Bool → Bool) : Bool :=
  f.sf == 15 || f.df == 15 || pair f.sf.toNat f.df.toNat f.x

/-- Lanes of a block of MXQ (R168). -/
def mxqLanes (s : Nat) (x : Bool) : Nat := if x then 64 else if s == 0 then 32 else 16

/-- The operand fields of an instruction. -/
def operands : Instr → List Opnd
  | .nop _ => []
  | .if_ _ => []
  | .else_ _ => []
  | .endif _ => []
  | .do_ _ => []
  | .enddo _ => []
  | .brk _ => []
  | .cont _ => []
  | .brx f => [.src false f.a.toNat 13]
  | .rcv _ => []
  | .bar _ => []
  | .bara _ => []
  | .barw _ => []
  | .trig _ => []
  | .yield _ => []
  | .exit _ => []
  | .mov f => [.src false f.a.toNat 13, .dst false f.d.toNat 1]
  | .movi _ => []
  | .iadd f => [.src false f.a.toNat 13, .src false f.b.toNat 7, .dst false f.d.toNat 1]
  | .isub f => [.src false f.a.toNat 13, .src false f.b.toNat 7, .dst false f.d.toNat 1]
  | .imul f => [.src false f.a.toNat 13, .src false f.b.toNat 7, .dst false f.d.toNat 1]
  | .imulh f => [.src false f.a.toNat 13, .src false f.b.toNat 7, .dst false f.d.toNat 1]
  | .imad f => [.src false f.a.toNat 13, .src false f.b.toNat 7, .src false f.c.toNat 1]
  | .imin f => [.src false f.a.toNat 13, .src false f.b.toNat 7, .dst false f.d.toNat 1]
  | .imax f => [.src false f.a.toNat 13, .src false f.b.toNat 7, .dst false f.d.toNat 1]
  | .iabs f => [.src false f.a.toNat 13, .dst false f.d.toNat 1]
  | .addi f => [.src false f.a.toNat 13]
  | .and f => [.src false f.a.toNat 13, .src false f.b.toNat 7, .dst false f.d.toNat 1]
  | .or f => [.src false f.a.toNat 13, .src false f.b.toNat 7, .dst false f.d.toNat 1]
  | .xor f => [.src false f.a.toNat 13, .src false f.b.toNat 7, .dst false f.d.toNat 1]
  | .andn f => [.src false f.a.toNat 13, .src false f.b.toNat 7, .dst false f.d.toNat 1]
  | .andi f => [.src false f.a.toNat 13]
  | .ori f => [.src false f.a.toNat 13]
  | .xori f => [.src false f.a.toNat 13]
  | .shl f => [.src false f.a.toNat 13, .src false f.b.toNat 7, .dst false f.d.toNat 1]
  | .shr f => [.src false f.a.toNat 13, .src false f.b.toNat 7, .dst false f.d.toNat 1]
  | .sar f => [.src false f.a.toNat 13, .src false f.b.toNat 7, .dst false f.d.toNat 1]
  | .rot f => [.src false f.a.toNat 13, .src false f.b.toNat 7, .dst false f.d.toNat 1]
  | .shli f => [.src false f.a.toNat 13]
  | .shri f => [.src false f.a.toNat 13]
  | .sari f => [.src false f.a.toNat 13]
  | .popc f => [.src false f.a.toNat 13, .dst false f.d.toNat 1]
  | .clz f => [.src false f.a.toNat 13, .dst false f.d.toNat 1]
  | .brev f => [.src false f.a.toNat 13, .dst false f.d.toNat 1]
  | .bfx f => [.src false f.a.toNat 13, .src false f.b.toNat 7, .dst false f.d.toNat 1]
  | .bfi f => [.src false f.a.toNat 13, .src false f.b.toNat 7, .src false f.c.toNat 1]
  | .redx f => [.src false f.a.toNat 13, .dst false f.d.toNat 1]
  | .scan f => [.src false f.a.toNat 13, .dst false f.d.toNat 1]
  | .icmpW f => [.src false f.a.toNat 13, .src false f.b.toNat 7]
  | .icmpH2 f => [.src false f.a.toNat 13, .src false f.b.toNat 7]
  | .icmpB4 f => [.src false f.a.toNat 13, .src false f.b.toNat 7]
  | .fcmp f => [.src false f.a.toNat 13, .src false f.b.toNat 7]
  | .bcmp2 f => [.src false f.a.toNat 13, .src false f.b.toNat 7]
  | .plog _ => []
  | .pset f => [.src false f.a.toNat 13]
  | .pget f => [.dst false f.d.toNat 1]
  | .sel f => [.src false f.a.toNat 13, .src false f.b.toNat 7]
  | .shfl f => [.src false f.a.toNat 13, .src false f.b.toNat 7, .dst false f.d.toNat 1]
  | .shflup f => [.src false f.a.toNat 13, .src false f.b.toNat 7, .dst false f.d.toNat 1]
  | .shfldn f => [.src false f.a.toNat 13, .src false f.b.toNat 7, .dst false f.d.toNat 1]
  | .shflx f => [.src false f.a.toNat 13, .src false f.b.toNat 7, .dst false f.d.toNat 1]
  | .vote f => [.dst false f.d.toNat 1]
  | .match_ f => [.src false f.a.toNat 13, .dst false f.d.toNat 1]
  | .fadd f => [.src false f.a.toNat 13, .src false f.b.toNat 7, .dst false f.d.toNat 1]
  | .fsub f => [.src false f.a.toNat 13, .src false f.b.toNat 7, .dst false f.d.toNat 1]
  | .fmul f => [.src false f.a.toNat 13, .src false f.b.toNat 7, .dst false f.d.toNat 1]
  | .ffma f => [.src false f.a.toNat 13, .src false f.b.toNat 7, .src false f.c.toNat 1]
  | .fmin f => [.src false f.a.toNat 13, .src false f.b.toNat 7, .dst false f.d.toNat 1]
  | .fmax f => [.src false f.a.toNat 13, .src false f.b.toNat 7, .dst false f.d.toNat 1]
  | .badd2 f => [.src false f.a.toNat 13, .src false f.b.toNat 7, .dst false f.d.toNat 1]
  | .bmul2 f => [.src false f.a.toNat 13, .src false f.b.toNat 7, .dst false f.d.toNat 1]
  | .bfma2 f => [.src false f.a.toNat 13, .src false f.b.toNat 7, .src false f.c.toNat 1]
  | .hadd2 f => [.src false f.a.toNat 13, .src false f.b.toNat 7, .dst false f.d.toNat 1]
  | .hmul2 f => [.src false f.a.toNat 13, .src false f.b.toNat 7, .dst false f.d.toNat 1]
  | .hfma2 f => [.src false f.a.toNat 13, .src false f.b.toNat 7, .src false f.c.toNat 1]
  | .frcp f => [.src false f.a.toNat 13, .dst false f.d.toNat 1]
  | .frsq f => [.src false f.a.toNat 13, .dst false f.d.toNat 1]
  | .fsqrt f => [.src false f.a.toNat 13, .dst false f.d.toNat 1]
  | .fexp2 f => [.src false f.a.toNat 13, .dst false f.d.toNat 1]
  | .flog2 f => [.src false f.a.toNat 13, .dst false f.d.toNat 1]
  | .fsin f => [.src false f.a.toNat 13, .dst false f.d.toNat 1]
  | .fcos f => [.src false f.a.toNat 13, .dst false f.d.toNat 1]
  | .ftanh f => [.src false f.a.toNat 13, .dst false f.d.toNat 1]
  | .cvt f => [.src false f.a.toNat 13]
  | .cvtp f => [.src false f.a.toNat 13]
  | .cvtu f => [.src false f.a.toNat 13]
  | .frnd f => [.src false f.a.toNat 13]
  | .i2f f => [.src false f.a.toNat 13]
  | .f2i f => [.src false f.a.toNat 13]
  | .mxq f => [.src false f.a.toNat 13]
  | .mxd f => [.src false f.a.toNat 13]
  | .dot4 f => [.src false f.a.toNat 13, .src false f.b.toNat 7, .src false f.c.toNat 1]
  | .lds f => [.base f.base.toNat 3, .src false f.a.toNat 13, .dstRun false f.b.toNat 7 (laneRun f.f)]
  | .sts f => [.base f.base.toNat 3, .src false f.a.toNat 13, .srcRun false f.b.toNat 7 (laneRun f.f)]
  | .ats f => [.base f.base.toNat 3, .src false f.a.toNat 13, .src false f.b.toNat 7]
  | .fpush f => [.base f.base.toNat 3, .srcRun false f.b.toNat 7 (laneRun f.f)]
  | .fpop f => [.base f.base.toNat 3, .dstRun false f.b.toNat 7 (laneRun f.f)]
  | .fpeek f => [.base f.base.toNat 3, .src false f.a.toNat 13, .dstRun false f.b.toNat 7 (laneRun f.f)]
  | .pref f => [.base f.base.toNat 3, .src false f.a.toNat 13]
  | .waitc f => [.src false f.a.toNat 13]
  | .ldg f => [.base f.base.toNat 3, .src false f.a.toNat 13, .dstRun false f.b.toNat 7 (laneRun f.f)]
  | .ldga f => [.base f.base.toNat 3, .src false f.a.toNat 13, .dstRun false f.b.toNat 7 (laneRun f.f)]
  | .stg f => [.base f.base.toNat 3, .src false f.a.toNat 13, .srcRun false f.b.toNat 7 (laneRun f.f)]
  | .stgl f => [.base f.base.toNat 3, .src false f.a.toNat 13, .srcRun false f.b.toNat 7 (laneRun f.f)]
  | .atgCore f => [.base f.base.toNat 3, .src false f.a.toNat 13, .src false f.b.toNat 7]
  | .atgClus f => [.base f.base.toNat 3, .src false f.a.toNat 13, .src false f.b.toNat 7]
  | .atgDie f => [.base f.base.toNat 3, .src false f.a.toNat 13, .src false f.b.toNat 7]
  | .atgPkg f => [.base f.base.toNat 3, .src false f.a.toNat 13, .src false f.b.toNat 7]
  | .atgSys f => [.base f.base.toNat 3, .src false f.a.toNat 13, .src false f.b.toNat 7]
  | .redgDie f => [.base f.base.toNat 3, .src false f.a.toNat 13, .src false f.b.toNat 7]
  | .redgPkg f => [.base f.base.toNat 3, .src false f.a.toNat 13, .src false f.b.toNat 7]
  | .redgSys f => [.base f.base.toNat 3, .src false f.a.toNat 13, .src false f.b.toNat 7]
  | .spawn f => [.src false f.a.toNat 13, .srcIf16 f.b.toNat 7]
  | .spawnt f => [.src false f.a.toNat 13, .srcIf16 f.b.toNat 7]
  | .tagset f => [.src false f.a.toNat 13]
  | .tagv f => [.dst false f.d.toNat 1]
  | .rdlane f => [.src false f.a.toNat 13, .src false f.b.toNat 7, .dst true f.d.toNat 1]
  | .wrlane f => [.src true f.a.toNat 13, .src true f.b.toNat 7, .dst false f.d.toNat 1]
  | .bra _ => []
  | .call _ => []
  | .calli f => [.src true f.a.toNat 13, .dst true f.d.toNat 1]
  | .ret f => [.src true f.a.toNat 13]
  | .hloop f => [.src true f.a.toNat 13]
  | .bri f => [.src true f.a.toNat 13]
  | .gang f => [.src true f.a.toNat 13]
  | .umov f => [.src true f.a.toNat 13, .dst true f.d.toNat 1]
  | .uldk f _ _ => [.dst true f.d.toNat 1]
  | .uadd f => [.src true f.a.toNat 13, .src true f.b.toNat 7, .dst true f.d.toNat 1]
  | .usub f => [.src true f.a.toNat 13, .src true f.b.toNat 7, .dst true f.d.toNat 1]
  | .umul f => [.src true f.a.toNat 13, .src true f.b.toNat 7, .dst true f.d.toNat 1]
  | .umulh f => [.src true f.a.toNat 13, .src true f.b.toNat 7, .dst true f.d.toNat 1]
  | .umad f => [.src true f.a.toNat 13, .src true f.b.toNat 7, .src true f.c.toNat 1]
  | .uand f => [.src true f.a.toNat 13, .src true f.b.toNat 7, .dst true f.d.toNat 1]
  | .uor f => [.src true f.a.toNat 13, .src true f.b.toNat 7, .dst true f.d.toNat 1]
  | .uxor f => [.src true f.a.toNat 13, .src true f.b.toNat 7, .dst true f.d.toNat 1]
  | .ushl f => [.src true f.a.toNat 13, .src true f.b.toNat 7, .dst true f.d.toNat 1]
  | .ushr f => [.src true f.a.toNat 13, .src true f.b.toNat 7, .dst true f.d.toNat 1]
  | .usar f => [.src true f.a.toNat 13, .src true f.b.toNat 7, .dst true f.d.toNat 1]
  | .uaddi f => [.src true f.a.toNat 13]
  | .uandi f => [.src true f.a.toNat 13]
  | .ushli f => [.src true f.a.toNat 13]
  | .ushri f => [.src true f.a.toNat 13]
  | .umin f => [.src true f.a.toNat 13, .src true f.b.toNat 7, .dst true f.d.toNat 1]
  | .umax f => [.src true f.a.toNat 13, .src true f.b.toNat 7, .dst true f.d.toNat 1]
  | .upopc f => [.src true f.a.toNat 13, .dst true f.d.toNat 1]
  | .uclz f => [.src true f.a.toNat 13, .dst true f.d.toNat 1]
  | .ucmp f => [.src true f.a.toNat 13, .src true f.b.toNat 7]
  | .uplog _ => []
  | .usel f => [.src true f.a.toNat 13, .src true f.b.toNat 7]
  | .mfs _ => []
  | .mts f => [.src true f.a.toNat 13]
  | .join f => [.src true f.a.toNat 13, .src true f.b.toNat 7, .dst true f.d.toNat 1]
  | .ftest f => [.src true f.a.toNat 13, .dst true f.d.toNat 1]
  | .fcancel f => [.src true f.a.toNat 13, .dst true f.d.toNat 1]
  | .texit f => [.src true f.a.toNat 13]
  | .dqlen f => [.dst true f.d.toNat 1]
  | .tself f => [.dst true f.d.toNat 1]
  | .ldu f => [.base f.base.toNat 3, .src true f.a.toNat 13, .dstRun true f.b.toNat 7 (uniRun f.f)]
  | .stu f => [.base f.base.toNat 3, .src true f.a.toNat 13, .srcRun true f.b.toNat 7 (uniRun f.f)]
  | .atu f => [.base f.base.toNat 3, .src true f.a.toNat 13, .src true f.b.toNat 7]
  | .rwb f => [.src true f.a.toNat 13, .src true f.b.toNat 7]
  | .rinv f => [.src true f.a.toNat 13, .src true f.b.toNat 7]
  | .rwbi f => [.src true f.a.toNat 13, .src true f.b.toNat 7]
  | .fence _ => []
  | .xpub f => [.src true f.a.toNat 13, .src true f.b.toNat 7]
  | .waitv f => [.src true f.a.toNat 13, .src true f.b.toNat 7, .src true f.c.toNat 1]
  | .qfence _ => []
  | .xprobe f => [.src true f.a.toNat 13, .dst true f.d.toNat 1]
  | .cpy f => [.src true f.a.toNat 13, .src true f.b.toNat 7, .src true f.c.toNat 1]
  | .cpy2d f => [.src true f.a.toNat 13, .src true f.b.toNat 7, .src true f.c.toNat 1, .next f.c.toNat 1]
  | .coll f => [.src true f.a.toNat 13, .src true f.b.toNat 7, .src true f.c.toNat 1]
  | .eqstat f => [.src true f.a.toNat 13, .dst true f.d.toNat 1]
  | .mma f => [.src true f.a.toNat 13, .src true f.b.toNat 7, .src true f.c.toNat 1]
  | .mmat f => [.src true f.a.toNat 13, .src true f.b.toNat 7, .src true f.c.toNat 1]
  | .mperm f => [.src true f.a.toNat 13, .src true f.b.toNat 7, .src true f.c.toNat 1]
  | .mred f => [.src true f.a.toNat 13, .src true f.b.toNat 7, .src true f.c.toNat 1]
  | .mload f => [.src true f.a.toNat 13, .src true f.b.toNat 7]
  | .mstore f => [.src true f.a.toNat 13, .src true f.b.toNat 7]
  | .mres f => [.src true f.a.toNat 13, .src true f.b.toNat 7]
  | .mresq f => [.src true f.a.toNat 13, .dst true f.d.toNat 1]
  | .mfence f => [.dst true f.d.toNat 1]
  | .mwait f => [.src true f.a.toNat 13]
  | .mgrad f => [.src true f.a.toNat 13, .src true f.b.toNat 7, .src true f.c.toNat 1]
  | .mzero f => [.src true f.a.toNat 13, .src true f.b.toNat 7]
  | .trap _ => []
  | .eret _ => []
  | .savec f => [.src true f.a.toNat 13]
  | .rstc f => [.src true f.a.toNat 13]
  | .sigs _ => []
  | .bkpt _ => []
  | .bankset f => [.src true f.a.toNat 13, .src true f.b.toNat 7, .dst true f.d.toNat 1]
  | .bankq f => [.src true f.a.toNat 13, .dst true f.d.toNat 1]
  | .lvcall f => [.src true f.a.toNat 13, .src true f.b.toNat 7]
  | .lvret f => [.src true f.a.toNat 13]
  | .rgset f => [.src true f.a.toNat 13, .src true f.b.toNat 7]
  | .loadReturn _ _ _ _ => []
  | .writePerformed _ _ _ _ => []
  | .asyncDelivery _ _ => []
  | .barrierPhaseComplete _ _ => []
  | .joinResume _ _ _ => []
  | .waitvWake _ _ _ => []
  | .ringPerform _ _ _ => []
  | .slotRelease _ _ => []
  | .slotReturn _ _ => []
  | .ownerPop _ _ => []
  | .stealRequest _ => []
  | .stealRotation _ _ => []
  | .stealAnswer _ _ => []
  | .closureArrival _ _ => []
  | .stageAhead _ _ => []
  | .tileLoadDone _ _ _ => []
  | .taskStart _ _ => []
  | .storerDone _ _ => []
  | .loaderRequest _ _ _ => []
  | .tenantSwitch _ _ => []
  | .leaseExpiry _ _ => []
  | .revokeProbe _ _ => []
  | .coherenceProbe _ _ _ => []
  | .remoteWriteApply _ _ => []
  | .l2Eviction _ _ => []
  | .type1Fill _ _ _ => []
  | .hostSectorGrant _ _ _ => []
  | .fradonInbound _ _ _ _ => []
  | .engineAccept _ => []
  | .engineChunk _ => []
  | .engineResolve _ => []
  | .collPeerEnd _ => []
  | .gangRendezvous _ _ => []
  | .matrixRow _ => []
  | .arrayClear _ => []
  | .preemptRequest _ _ => []
  | .migrateRequest _ _ _ => []
  | .contextRestore _ _ _ => []
  | .debugStop _ _ => []
  | .debugResume _ _ => []
  | .debugStep _ _ => []
  | .notify _ _ => []
  | .wptrPoll _ => []
  | .skip _ => []
  | .flush _ => []
  | .flushDone _ => []
  | .pktNop _ => []
  | .launch _ => []
  | .copy _ => []
  | .pktColl _ => []
  | .pktWaitv _ => []
  | .signal _ => []
  | .andbar _ => []
  | .indirect _ => []
  | .graphDefine _ => []
  | .graphRun _ => []
  | .graphNodeStart _ _ => []
  | .packetCompletion _ => []
  | .workgroupPlace _ => []
  | .launchDepStart _ => []
  | .launchComplete _ => []
  | .queueCreate _ _ _ _ _ _ _ _ _ => []
  | .queueDestroy _ => []
  | .commSlotWrite _ _ _ _ => []
  | .stealMinWrite _ _ _ => []
  | .minresWrite _ _ => []
  | .registerWrite _ _ _ => []
  | .pctlWrite _ _ => []
  | .fwctlEnable _ _ _ => []
  | .fwctlDisable _ _ => []
  | .attachWrite _ _ => []
  | .thermhotWrite _ _ => []
  | .refusalLogClear _ _ => []
  | .accessRefusal _ _ _ _ _ => []
  | .shootdown _ _ => []
  | .shootdownComplete _ => []
  | .energyWindow _ => []
  | .retire _ => []
  | .merge _ _ => []
  | .split _ _ => []
  | .mergeDrainTimeout _ => []
  | .attestRequest _ _ => []
  | .attestDone _ => []
  | .powerGood _ _ _ => []
  | .portLinkChange _ _ => []
  | .powerLimit _ => []
  | .coreHot _ _ => []
  | .coreCool _ _ => []
  | .criticalReset _ => []

/-- The fixed and reserved fields of an instruction, each with whether it holds an accepted value and its lowest word
bit (R38 to R40, R44 to R48, R68, and the entries; DEDUCED, log entry 42). The a field of MWAIT may hold any source code also
where imm13 [4:0] is not 16 (DESIGN CHOICE, log entry 87). -/
def fieldChecks (e : Env) : Instr → List (Bool × Nat)
  | .nop _ => []
  | .if_ f => [(!f.r, 23), (f.a == 0, 13), (1 ≤ f.imm.toNat && f.imm.toNat ≤ 4095, 0)]
  | .else_ f => [(!f.r, 23), (f.g == 7 && !f.neg, 19), (f.a == 0, 13), (1 ≤ f.imm.toNat && f.imm.toNat ≤ 4095, 0)]
  | .endif f => [(!f.r, 23), (f.g == 7 && !f.neg, 19), (f.a == 0, 13), (f.imm == 0, 0)]
  | .do_ f => [(!f.r, 23), (f.g == 7 && !f.neg, 19), (f.a == 0, 13), (1 ≤ f.imm.toNat && f.imm.toNat ≤ 4095, 0)]
  | .enddo f => [(!f.r, 23), (f.g == 7 && !f.neg, 19), (f.a == 0, 13), (f.imm.toNat == 0 || 4097 ≤ f.imm.toNat, 0)]
  | .brk f => [(!f.r, 23), (f.a == 0, 13), (f.imm.toNat ≤ 253, 0)]
  | .cont f => [(!f.r, 23), (f.a == 0, 13), (f.imm.toNat ≤ 253, 0)]
  | .brx f => [(!f.r, 23), (!(f.g == 7 && f.neg), 19), (1 ≤ f.imm.toNat && f.imm.toNat ≤ 4095, 0)]
  | .rcv f => [(!f.r, 23), (f.g == 7 && !f.neg, 19), (f.a == 0, 13), (f.imm == 0, 0)]
  | .bar f => [(!f.r, 23), (f.g == 7 && !f.neg, 19), (f.a == 0, 13), (f.imm.toNat ≤ 255, 0)]
  | .bara f => [(!f.r, 23), (f.g == 7 && !f.neg, 19), (f.a == 0, 13), (f.imm.toNat ≤ 255, 0)]
  | .barw f => [(!f.r, 23), (f.g == 7 && !f.neg, 19), (f.a == 0, 13), (f.imm.toNat ≤ 255, 0)]
  | .trig f => [(!f.r, 23), (f.g == 7 && !f.neg, 19), (f.a == 0, 13), (f.imm == 0, 0)]
  | .yield f => [(!f.r, 23), (f.g == 7 && !f.neg, 19), (f.a == 0, 13), (f.imm == 0, 0)]
  | .exit f => [(!f.r, 23), (!(f.g == 7 && f.neg), 19), (f.a == 0, 13), (f.imm == 0, 0)]
  | .mov f => [(!(f.g == 7 && f.neg), 19), (f.b == 0, 7), (!(f.nw && f.d != 0), 1)]
  | .movi f => [(!(f.g == 7 && f.neg), 19), (f.a == 0, 13)]
  | .iadd f => [(!(f.g == 7 && f.neg), 19), (!(f.nw && f.d != 0), 1)]
  | .isub f => [(!(f.g == 7 && f.neg), 19), (!(f.nw && f.d != 0), 1)]
  | .imul f => [(!(f.g == 7 && f.neg), 19), (!(f.nw && f.d != 0), 1)]
  | .imulh f => [(!(f.g == 7 && f.neg), 19), (!(f.nw && f.d != 0), 1)]
  | .imad f => [(!(f.g == 7 && f.neg), 19)]
  | .imin f => [(!(f.g == 7 && f.neg), 19), (!(f.nw && f.d != 0), 1)]
  | .imax f => [(!(f.g == 7 && f.neg), 19), (!(f.nw && f.d != 0), 1)]
  | .iabs f => [(!(f.g == 7 && f.neg), 19), (f.b == 0, 7), (!(f.nw && f.d != 0), 1)]
  | .addi f => [(!(f.g == 7 && f.neg), 19)]
  | .and f => [(!(f.g == 7 && f.neg), 19), (!(f.nw && f.d != 0), 1)]
  | .or f => [(!(f.g == 7 && f.neg), 19), (!(f.nw && f.d != 0), 1)]
  | .xor f => [(!(f.g == 7 && f.neg), 19), (!(f.nw && f.d != 0), 1)]
  | .andn f => [(!(f.g == 7 && f.neg), 19), (!(f.nw && f.d != 0), 1)]
  | .andi f => [(!(f.g == 7 && f.neg), 19)]
  | .ori f => [(!(f.g == 7 && f.neg), 19)]
  | .xori f => [(!(f.g == 7 && f.neg), 19)]
  | .shl f => [(!(f.g == 7 && f.neg), 19), (!(f.nw && f.d != 0), 1)]
  | .shr f => [(!(f.g == 7 && f.neg), 19), (!(f.nw && f.d != 0), 1)]
  | .sar f => [(!(f.g == 7 && f.neg), 19), (!(f.nw && f.d != 0), 1)]
  | .rot f => [(!(f.g == 7 && f.neg), 19), (!(f.nw && f.d != 0), 1)]
  | .shli f => [(!(f.g == 7 && f.neg), 19), (f.imm.toNat ≤ 31, 0)]
  | .shri f => [(!(f.g == 7 && f.neg), 19), (f.imm.toNat ≤ 31, 0)]
  | .sari f => [(!(f.g == 7 && f.neg), 19), (f.imm.toNat ≤ 31, 0)]
  | .popc f => [(!(f.g == 7 && f.neg), 19), (f.b == 0, 7), (!(f.nw && f.d != 0), 1)]
  | .clz f => [(!(f.g == 7 && f.neg), 19), (f.b == 0, 7), (!(f.nw && f.d != 0), 1)]
  | .brev f => [(!(f.g == 7 && f.neg), 19), (f.b == 0, 7), (!(f.nw && f.d != 0), 1)]
  | .bfx f => [(!(f.g == 7 && f.neg), 19), (!(f.nw && f.d != 0), 1)]
  | .bfi f => [(!(f.g == 7 && f.neg), 19)]
  | .redx f => [(!(f.g == 7 && f.neg), 19), (f.b.toNat % 16 ≤ 10 && !(f.x && f.b.toNat % 16 ≥ 8), 7),
      (!f.b.getLsbD 4, 11), (!(f.nw && f.d != 0), 1)]
  | .scan f => [(!(f.g == 7 && f.neg), 19), (f.b.toNat % 16 ≤ 7 && !(f.x && f.b.toNat % 16 ≥ 8), 7),
      (!f.b.getLsbD 5, 12), (!(f.nw && f.d != 0), 1)]
  | .icmpW f => [(!f.r, 23), (!(f.g == 7 && f.neg), 19), (f.dp != 7, 4)]
  | .icmpH2 f => [(!f.r, 23), (!(f.g == 7 && f.neg), 19), (f.dp != 7, 4)]
  | .icmpB4 f => [(!f.r, 23), (!(f.g == 7 && f.neg), 19), (f.dp != 7, 4)]
  | .fcmp f => [(!f.r, 23), (!(f.g == 7 && f.neg), 19), (f.dp != 7, 4)]
  | .bcmp2 f => [(!f.r, 23), (!(f.g == 7 && f.neg), 19), (f.dp != 7, 4)]
  | .plog f => [(!f.r, 23), (!(f.g == 7 && f.neg), 19), (f.dp != 7, 4), (f.a.toNat / 16 == 0, 17),
      (f.b.toNat / 16 == 0, 11), (f.cc != 7, 1), (!(f.cc == 6 && f.b != 0), 7)]
  | .pset f => [(!f.r, 23), (!(f.g == 7 && f.neg), 19), (f.dp != 7, 4), (f.b == 0, 7), (f.cc == 0, 1)]
  | .pget f => [(!(f.g == 7 && f.neg), 19), (f.a.toNat / 8 == 0, 16), (f.b == 0, 7), (!(f.nw && f.d != 0), 1),
      (!f.x, 0)]
  | .sel f => [(!(f.g == 7 && f.neg), 19), (f.c.toNat / 16 == 0, 5), (!f.x, 0)]
  | .shfl f => [(!(f.g == 7 && f.neg), 19), (!(f.nw && f.d != 0), 1), (!f.x, 0)]
  | .shflup f => [(!(f.g == 7 && f.neg), 19), (!(f.nw && f.d != 0), 1), (!f.x, 0)]
  | .shfldn f => [(!(f.g == 7 && f.neg), 19), (!(f.nw && f.d != 0), 1), (!f.x, 0)]
  | .shflx f => [(!(f.g == 7 && f.neg), 19), (!(f.nw && f.d != 0), 1), (!f.x, 0)]
  | .vote f => [(!(f.g == 7 && f.neg), 19), (f.a.toNat / 16 == 0, 17), (f.b.toNat < 4, 7),
      (!(f.nw && f.d != 0), 1), (!f.x, 0)]
  | .match_ f => [(!(f.g == 7 && f.neg), 19), (f.b.toNat < 2, 7), (!(f.nw && f.d != 0), 1), (!f.x, 0)]
  | .fadd f => [(!(f.g == 7 && f.neg), 19), (!(f.nw && f.d != 0), 1)]
  | .fsub f => [(!(f.g == 7 && f.neg), 19), (!(f.nw && f.d != 0), 1)]
  | .fmul f => [(!(f.g == 7 && f.neg), 19), (!(f.nw && f.d != 0), 1)]
  | .ffma f => [(!(f.g == 7 && f.neg), 19)]
  | .fmin f => [(!(f.g == 7 && f.neg), 19), (!(f.nw && f.d != 0), 1)]
  | .fmax f => [(!(f.g == 7 && f.neg), 19), (!(f.nw && f.d != 0), 1)]
  | .badd2 f => [(!(f.g == 7 && f.neg), 19), (!(f.nw && f.d != 0), 1)]
  | .bmul2 f => [(!(f.g == 7 && f.neg), 19), (!(f.nw && f.d != 0), 1)]
  | .bfma2 f => [(!(f.g == 7 && f.neg), 19)]
  | .hadd2 f => [(!(f.g == 7 && f.neg), 19), (!(f.nw && f.d != 0), 1)]
  | .hmul2 f => [(!(f.g == 7 && f.neg), 19), (!(f.nw && f.d != 0), 1)]
  | .hfma2 f => [(!(f.g == 7 && f.neg), 19)]
  | .frcp f => [(!(f.g == 7 && f.neg), 19), (f.b == 0, 7), (!(f.nw && f.d != 0), 1)]
  | .frsq f => [(!(f.g == 7 && f.neg), 19), (f.b == 0, 7), (!(f.nw && f.d != 0), 1)]
  | .fsqrt f => [(!(f.g == 7 && f.neg), 19), (f.b == 0, 7), (!(f.nw && f.d != 0), 1)]
  | .fexp2 f => [(!(f.g == 7 && f.neg), 19), (f.b == 0, 7), (!(f.nw && f.d != 0), 1)]
  | .flog2 f => [(!(f.g == 7 && f.neg), 19), (f.b == 0, 7), (!(f.nw && f.d != 0), 1)]
  | .fsin f => [(!(f.g == 7 && f.neg), 19), (f.b == 0, 7), (!(f.nw && f.d != 0), 1)]
  | .fcos f => [(!(f.g == 7 && f.neg), 19), (f.b == 0, 7), (!(f.nw && f.d != 0), 1)]
  | .ftanh f => [(!(f.g == 7 && f.neg), 19), (f.b == 0, 7), (!(f.nw && f.d != 0), 1)]
  | .cvt f => [(!(f.g == 7 && f.neg), 19), (f.sf != 15, 9), (f.df != 15, 5),
      (listedPair f pairCvt, 5), (!f.x, 0)]
  | .cvtp f => [(!(f.g == 7 && f.neg), 19), (f.sf != 15, 9), (f.df != 15, 5),
      (listedPair f pairCvtp, 5), (!(pairCvtp f.sf.toNat f.df.toNat f.x && decide (8 ≤ f.sf.toNat) && f.rm != 0), 2)]
  | .cvtu f => [(!(f.g == 7 && f.neg), 19), (f.sf != 15, 9), (f.df != 15, 5),
      (listedPair f pairCvtu, 5), (!f.sat, 1), (f.rm == 0, 2)]
  | .frnd f => [(!(f.g == 7 && f.neg), 19), (f.sf != 15, 9), (f.df != 15, 5),
      (listedPair f pairFrnd, 5), (!f.x, 0), (!f.sat, 1)]
  | .i2f f => [(!(f.g == 7 && f.neg), 19), (f.sf != 15, 9), (f.df != 15, 5),
      (listedPair f pairI2f, 5), (!f.x, 0)]
  | .f2i f => [(!(f.g == 7 && f.neg), 19), (f.sf != 15, 9), (f.df != 15, 5),
      (listedPair f pairF2i, 5), (!f.x, 0), (!f.sat, 1)]
  | .mxq f => [(!(f.g == 7 && f.neg), 19), (f.sf != 15, 9), (f.df != 15, 5),
      (listedPair f pairMxq, 5), (!(pairMxq f.sf.toNat f.df.toNat f.x && decide (13 ≤ f.df.toNat) && f.rm != 0), 2),
      (!(pairMxq f.sf.toNat f.df.toNat f.x && decide (13 ≤ f.df.toNat) && f.sat), 1), (mxqLanes f.sf.toNat f.x ≤ e.width, 0)]
  | .mxd f => [(!(f.g == 7 && f.neg), 19), (f.sf != 15, 9), (f.df != 15, 5), (listedPair f pairMxd, 5)]
  | .dot4 f => [(!(f.g == 7 && f.neg), 19)]
  | .lds f => [(!f.r, 23), (!(f.g == 7 && f.neg), 19), (f.f != 7, 0)]
  | .sts f => [(!f.r, 23), (!(f.g == 7 && f.neg), 19), (f.f != 7, 0)]
  | .ats f => [(!f.r, 23), (!(f.g == 7 && f.neg), 19)]
  | .fpush f => [(!f.r, 23), (!(f.g == 7 && f.neg), 19), (f.a == 52, 13), (4 ≤ f.f.toNat && f.f.toNat ≤ 6, 0)]
  | .fpop f => [(!f.r, 23), (!(f.g == 7 && f.neg), 19), (f.a == 52, 13), (4 ≤ f.f.toNat && f.f.toNat ≤ 6, 0)]
  | .fpeek f => [(!f.r, 23), (!(f.g == 7 && f.neg), 19), (4 ≤ f.f.toNat && f.f.toNat ≤ 6, 0)]
  | .pref f => [(!f.r, 23), (!(f.g == 7 && f.neg), 19), (f.b == 0, 7), (f.f.toNat ≤ 2, 0)]
  | .waitc f => [(!f.r, 23), (f.g == 7 && !f.neg, 19), (f.imm.toNat ≤ 3, 0)]
  | .ldg f => [(!f.r, 23), (!(f.g == 7 && f.neg), 19), (f.f != 7, 0)]
  | .ldga f => [(!f.r, 23), (!(f.g == 7 && f.neg), 19), (f.f != 7, 0)]
  | .stg f => [(!f.r, 23), (!(f.g == 7 && f.neg), 19), (f.f != 7, 0)]
  | .stgl f => [(!f.r, 23), (!(f.g == 7 && f.neg), 19), (f.f != 7, 0)]
  | .atgCore f => [(!f.r, 23), (!(f.g == 7 && f.neg), 19)]
  | .atgClus f => [(!f.r, 23), (!(f.g == 7 && f.neg), 19)]
  | .atgDie f => [(!f.r, 23), (!(f.g == 7 && f.neg), 19)]
  | .atgPkg f => [(!f.r, 23), (!(f.g == 7 && f.neg), 19)]
  | .atgSys f => [(!f.r, 23), (!(f.g == 7 && f.neg), 19)]
  | .redgDie f => [(!f.r, 23), (!(f.g == 7 && f.neg), 19)]
  | .redgPkg f => [(!f.r, 23), (!(f.g == 7 && f.neg), 19)]
  | .redgSys f => [(!f.r, 23), (!(f.g == 7 && f.neg), 19)]
  | .spawn f => [(!f.nw, 23), (!(f.g == 7 && f.neg), 19), (e.width == 16 || f.b == 0, 7), (f.d == 0, 1), (!f.x, 0)]
  | .spawnt f => [(!f.nw, 23), (!(f.g == 7 && f.neg), 19), (e.width == 16 || f.b == 0, 7), (f.d == 0, 1), (!f.x, 0)]
  | .tagset f => [(!f.nw, 23), (!(f.g == 7 && f.neg), 19), (f.b == 0, 7), (f.d == 0, 1), (!f.x, 0)]
  | .tagv f => [(!(f.g == 7 && f.neg), 19), (f.a == 0, 13), (f.b == 0, 7), (!(f.nw && f.d != 0), 1), (!f.x, 0)]
  | .rdlane f => [(!(f.g == 7 && f.neg), 19), (!(f.nw && f.d != 0), 1), (!f.x, 0)]
  | .wrlane f => [(!(f.g == 7 && f.neg), 19), (!(f.nw && f.d != 0), 1), (!f.x, 0)]
  | .bra f => [(!(f.g == 7 && f.neg), 20)]
  | .call f => [(!(f.g == 7 && f.neg), 20)]
  | .calli f => [(!(f.g == 7 && f.neg), 19), (f.b == 0, 7), (!(f.nw && f.d != 0), 1), (!f.x, 0)]
  | .ret f => [(!f.nw, 23), (!(f.g == 7 && f.neg), 19), (f.b == 0, 7), (f.d == 0, 1), (!f.x, 0)]
  | .hloop f => [(!f.nw, 23), (!(f.g == 7 && f.neg), 19), (1 ≤ f.imm.toNat && f.imm.toNat ≤ 256, 0)]
  | .bri f => [(!f.nw, 23), (!(f.g == 7 && f.neg), 19), (f.b == 0, 7), (f.d == 0, 1), (!f.x, 0)]
  | .gang f => [(!f.nw, 23), (!(f.g == 7 && f.neg), 19), (f.b == 0, 7), (f.d == 0, 1), (!f.x, 0)]
  | .umov f => [(!(f.g == 7 && f.neg), 19), (f.b == 0, 7), (!(f.nw && f.d != 0), 1)]
  | .uldk f _ _ => [(!(f.g == 7 && f.neg), 19), (f.a == 0, 13), (f.b == 0, 7), (!(f.nw && f.d != 0), 1)]
  | .uadd f => [(!(f.g == 7 && f.neg), 19), (!(f.nw && f.d != 0), 1)]
  | .usub f => [(!(f.g == 7 && f.neg), 19), (!(f.nw && f.d != 0), 1)]
  | .umul f => [(!(f.g == 7 && f.neg), 19), (!(f.nw && f.d != 0), 1)]
  | .umulh f => [(!(f.g == 7 && f.neg), 19), (!(f.nw && f.d != 0), 1)]
  | .umad f => [(!(f.g == 7 && f.neg), 19)]
  | .uand f => [(!(f.g == 7 && f.neg), 19), (!(f.nw && f.d != 0), 1)]
  | .uor f => [(!(f.g == 7 && f.neg), 19), (!(f.nw && f.d != 0), 1)]
  | .uxor f => [(!(f.g == 7 && f.neg), 19), (!(f.nw && f.d != 0), 1)]
  | .ushl f => [(!(f.g == 7 && f.neg), 19), (!(f.nw && f.d != 0), 1)]
  | .ushr f => [(!(f.g == 7 && f.neg), 19), (!(f.nw && f.d != 0), 1)]
  | .usar f => [(!(f.g == 7 && f.neg), 19), (!(f.nw && f.d != 0), 1)]
  | .uaddi f => [(!(f.g == 7 && f.neg), 19)]
  | .uandi f => [(!(f.g == 7 && f.neg), 19)]
  | .ushli f => [(!(f.g == 7 && f.neg), 19), (f.imm.toNat ≤ 63, 0)]
  | .ushri f => [(!(f.g == 7 && f.neg), 19), (f.imm.toNat ≤ 63, 0)]
  | .umin f => [(!(f.g == 7 && f.neg), 19), (!(f.nw && f.d != 0), 1)]
  | .umax f => [(!(f.g == 7 && f.neg), 19), (!(f.nw && f.d != 0), 1)]
  | .upopc f => [(!(f.g == 7 && f.neg), 19), (f.b == 0, 7), (!(f.nw && f.d != 0), 1)]
  | .uclz f => [(!(f.g == 7 && f.neg), 19), (f.b == 0, 7), (!(f.nw && f.d != 0), 1)]
  | .ucmp f => [(!f.r, 23), (!(f.g == 7 && f.neg), 19), (f.dp != 7, 4)]
  | .uplog f => [(!f.r, 23), (!(f.g == 7 && f.neg), 19), (f.dp != 7, 4), (f.a.toNat / 16 == 0, 17),
      (f.b.toNat / 16 == 0, 11), (f.cc != 7, 1), (!(f.cc == 6 && f.b != 0), 7)]
  | .usel f => [(!(f.g == 7 && f.neg), 19), (f.c.toNat / 16 == 0, 5)]
  | .mfs f => [(!(f.g == 7 && f.neg), 19), (f.a == 0, 13), (srReadable e.firmware f.imm.toNat, 0)]
  | .mts f => [(!f.nw, 23), (!(f.g == 7 && f.neg), 19), (srWritable e.firmware f.imm.toNat, 0)]
  | .join f => [(!(f.g == 7 && f.neg), 19), (!(f.nw && f.d != 0), 1), (!f.x, 0)]
  | .ftest f => [(!(f.g == 7 && f.neg), 19), (f.b == 0, 7), (!(f.nw && f.d != 0), 1), (!f.x, 0)]
  | .fcancel f => [(!(f.g == 7 && f.neg), 19), (f.b == 0, 7), (!(f.nw && f.d != 0), 1), (!f.x, 0)]
  | .texit f => [(!f.nw, 23), (!(f.g == 7 && f.neg), 19), (f.b == 0, 7), (f.d == 0, 1), (!f.x, 0)]
  | .dqlen f => [(!(f.g == 7 && f.neg), 19), (f.a == 0, 13), (f.b == 0, 7), (!(f.nw && f.d != 0), 1), (!f.x, 0)]
  | .tself f => [(!(f.g == 7 && f.neg), 19), (f.a == 0, 13), (f.b == 0, 7), (!(f.nw && f.d != 0), 1), (!f.x, 0)]
  | .ldu f => [(!f.r, 23), (!(f.g == 7 && f.neg), 19), (f.f != 7, 0)]
  | .stu f => [(!f.r, 23), (!(f.g == 7 && f.neg), 19), (f.f != 7, 0)]
  | .atu f => [(!f.r, 23), (!(f.g == 7 && f.neg), 19)]
  | .rwb f => [(!f.nw, 23), (!(f.g == 7 && f.neg), 19), (f.d == 0, 1), (!f.x, 0)]
  | .rinv f => [(!f.nw, 23), (!(f.g == 7 && f.neg), 19), (f.d == 0, 1), (!f.x, 0)]
  | .rwbi f => [(!f.nw, 23), (!(f.g == 7 && f.neg), 19), (f.d == 0, 1), (!f.x, 0)]
  | .fence f => [(!f.nw, 23), (!(f.g == 7 && f.neg), 19), (f.a == 0, 13), (f.imm.toNat / 32 == 0, 5),
      (f.imm.toNat / 8 % 4 != 0, 3), (1 ≤ f.imm.toNat % 8 && f.imm.toNat % 8 ≤ 5, 0)]
  | .xpub f => [(!f.nw, 23), (!(f.g == 7 && f.neg), 19), (f.d.toNat / 8 == 0, 4),
      (1 ≤ f.d.toNat % 8 && f.d.toNat % 8 ≤ 5 && !(e.firmware && f.d.toNat % 8 < 3), 1), (!f.x, 0)]
  | .waitv f => [(!(f.g == 7 && f.neg), 19)]
  | .qfence f => [(!f.nw, 23), (!(f.g == 7 && f.neg), 19), (f.a == 0, 13), (f.imm.toNat / 64 == 0, 6),
      (f.imm.toNat % 64 != 0, 0)]
  | .xprobe f => [(!f.nw, 23), (!(f.g == 7 && f.neg), 19), (f.b == 0, 7), (!f.x, 0)]
  | .cpy f => [(!f.nw, 23), (!(f.g == 7 && f.neg), 19), (!f.x, 0)]
  | .cpy2d f => [(!f.nw, 23), (!(f.g == 7 && f.neg), 19),
      (f.c.toNat ≤ 14 || (16 ≤ f.c.toNat && f.c.toNat ≤ 46), 1), (!f.x, 0)]
  | .coll f => [(!f.nw, 23), (!(f.g == 7 && f.neg), 19), (!f.x, 0)]
  | .eqstat f => [(!(f.g == 7 && f.neg), 19), (f.b == 0, 7), (!(f.nw && f.d != 0), 1), (!f.x, 0)]
  | .mma f => [(!f.nw, 23), (!(f.g == 7 && f.neg), 19), (!f.x, 0)]
  | .mmat f => [(!f.nw, 23), (!(f.g == 7 && f.neg), 19), (!f.x, 0)]
  | .mperm f => [(!f.nw, 23), (!(f.g == 7 && f.neg), 19), (!f.x, 0)]
  | .mred f => [(!f.nw, 23), (!(f.g == 7 && f.neg), 19), (!f.x, 0)]
  | .mload f => [(!f.nw, 23), (!(f.g == 7 && f.neg), 19), (f.d == 0, 1), (!f.x, 0)]
  | .mstore f => [(!f.nw, 23), (!(f.g == 7 && f.neg), 19), (f.d == 0, 1), (!f.x, 0)]
  | .mres f => [(!f.nw, 23), (!(f.g == 7 && f.neg), 19), (f.d == 0, 1), (!f.x, 0)]
  | .mresq f => [(!f.nw, 23), (!(f.g == 7 && f.neg), 19), (f.b == 0, 7), (!f.x, 0)]
  | .mfence f => [(!(f.g == 7 && f.neg), 19), (f.a == 0, 13), (f.b == 0, 7), (!(f.nw && f.d != 0), 1), (!f.x, 0)]
  | .mwait f => [(!f.nw, 23), (!(f.g == 7 && f.neg), 19), (f.imm.toNat / 32 == 0, 5), (f.imm.toNat % 32 ≤ 17, 0)]
  | .mgrad f => [(!f.nw, 23), (!(f.g == 7 && f.neg), 19), (!f.x, 0)]
  | .mzero f => [(!f.nw, 23), (!(f.g == 7 && f.neg), 19), (f.d == 0, 1), (!f.x, 0)]
  | .trap f => [(!f.nw, 23), (!(f.g == 7 && f.neg), 19), (f.a == 0, 13)]
  | .eret f => [(!f.nw, 23), (!(f.g == 7 && f.neg), 19), (f.a == 0, 13), (f.b == 0, 7), (f.d == 0, 1), (!f.x, 0)]
  | .savec f => [(!f.nw, 23), (!(f.g == 7 && f.neg), 19), (f.b == 0, 7), (f.d == 0, 1), (!f.x, 0)]
  | .rstc f => [(!f.nw, 23), (!(f.g == 7 && f.neg), 19), (f.b == 0, 7), (f.d == 0, 1), (!f.x, 0)]
  | .sigs f => [(!f.nw, 23), (!(f.g == 7 && f.neg), 19), (f.a == 0, 13), (f.b == 0, 7), (f.d == 0, 1), (!f.x, 0)]
  | .bkpt f => [(!f.nw, 23), (!(f.g == 7 && f.neg), 19), (f.a == 0, 13), (f.b == 0, 7), (f.d == 0, 1), (!f.x, 0)]
  | .bankset f => [(!f.nw, 23), (!(f.g == 7 && f.neg), 19), (!f.x, 0)]
  | .bankq f => [(!(f.g == 7 && f.neg), 19), (f.b == 0, 7), (!(f.nw && f.d != 0), 1), (!f.x, 0)]
  | .lvcall f => [(!f.nw, 23), (!(f.g == 7 && f.neg), 19), (f.d == 0, 1), (!f.x, 0)]
  | .lvret f => [(!f.nw, 23), (!(f.g == 7 && f.neg), 19), (f.b == 0, 7), (f.d == 0, 1), (!f.x, 0)]
  | .rgset f => [(!f.nw, 23), (!(f.g == 7 && f.neg), 19), (f.d == 0, 1), (!f.x, 0)]
  | .loadReturn _ _ _ _ => []
  | .writePerformed _ _ _ _ => []
  | .asyncDelivery _ _ => []
  | .barrierPhaseComplete _ _ => []
  | .joinResume _ _ _ => []
  | .waitvWake _ _ _ => []
  | .ringPerform _ _ _ => []
  | .slotRelease _ _ => []
  | .slotReturn _ _ => []
  | .ownerPop _ _ => []
  | .stealRequest _ => []
  | .stealRotation _ _ => []
  | .stealAnswer _ _ => []
  | .closureArrival _ _ => []
  | .stageAhead _ _ => []
  | .tileLoadDone _ _ _ => []
  | .taskStart _ _ => []
  | .storerDone _ _ => []
  | .loaderRequest _ _ _ => []
  | .tenantSwitch _ _ => []
  | .leaseExpiry _ _ => []
  | .revokeProbe _ _ => []
  | .coherenceProbe _ _ _ => []
  | .remoteWriteApply _ _ => []
  | .l2Eviction _ _ => []
  | .type1Fill _ _ _ => []
  | .hostSectorGrant _ _ _ => []
  | .fradonInbound _ _ _ _ => []
  | .engineAccept _ => []
  | .engineChunk _ => []
  | .engineResolve _ => []
  | .collPeerEnd _ => []
  | .gangRendezvous _ _ => []
  | .matrixRow _ => []
  | .arrayClear _ => []
  | .preemptRequest _ _ => []
  | .migrateRequest _ _ _ => []
  | .contextRestore _ _ _ => []
  | .debugStop _ _ => []
  | .debugResume _ _ => []
  | .debugStep _ _ => []
  | .notify _ _ => []
  | .wptrPoll _ => []
  | .skip _ => []
  | .flush _ => []
  | .flushDone _ => []
  | .pktNop _ => []
  | .launch _ => []
  | .copy _ => []
  | .pktColl _ => []
  | .pktWaitv _ => []
  | .signal _ => []
  | .andbar _ => []
  | .indirect _ => []
  | .graphDefine _ => []
  | .graphRun _ => []
  | .graphNodeStart _ _ => []
  | .packetCompletion _ => []
  | .workgroupPlace _ => []
  | .launchDepStart _ => []
  | .launchComplete _ => []
  | .queueCreate _ _ _ _ _ _ _ _ _ => []
  | .queueDestroy _ => []
  | .commSlotWrite _ _ _ _ => []
  | .stealMinWrite _ _ _ => []
  | .minresWrite _ _ => []
  | .registerWrite _ _ _ => []
  | .pctlWrite _ _ => []
  | .fwctlEnable _ _ _ => []
  | .fwctlDisable _ _ => []
  | .attachWrite _ _ => []
  | .thermhotWrite _ _ => []
  | .refusalLogClear _ _ => []
  | .accessRefusal _ _ _ _ _ => []
  | .shootdown _ _ => []
  | .shootdownComplete _ => []
  | .energyWindow _ => []
  | .retire _ => []
  | .merge _ _ => []
  | .split _ _ => []
  | .mergeDrainTimeout _ => []
  | .attestRequest _ _ => []
  | .attestDone _ => []
  | .powerGood _ _ _ => []
  | .portLinkChange _ _ => []
  | .powerLimit _ => []
  | .coreHot _ _ => []
  | .coreCool _ _ => []
  | .criticalReset _ => []

/-- The switching class (Table 3 of R107). -/
def isSwitching : Instr → Bool
  | .redx f => f.b.getLsbD 5
  | .brx _ => true
  | .rcv _ => true
  | .bar _ => true
  | .barw _ => true
  | .yield _ => true
  | .lds _ => true
  | .sts _ => true
  | .ats _ => true
  | .fpush _ => true
  | .fpop _ => true
  | .fpeek _ => true
  | .pref _ => true
  | .waitc _ => true
  | .ldg _ => true
  | .ldga _ => true
  | .stg _ => true
  | .stgl _ => true
  | .atgCore _ => true
  | .atgClus _ => true
  | .atgDie _ => true
  | .atgPkg _ => true
  | .atgSys _ => true
  | .redgDie _ => true
  | .redgPkg _ => true
  | .redgSys _ => true
  | .spawn _ => true
  | .spawnt _ => true
  | .join _ => true
  | .ldu _ => true
  | .stu _ => true
  | .atu _ => true
  | .rwb _ => true
  | .rinv _ => true
  | .rwbi _ => true
  | .xpub _ => true
  | .waitv _ => true
  | .xprobe _ => true
  | .cpy _ => true
  | .cpy2d _ => true
  | .coll _ => true
  | .mma _ => true
  | .mmat _ => true
  | .mperm _ => true
  | .mred _ => true
  | .mload _ => true
  | .mstore _ => true
  | .mwait _ => true
  | .mgrad _ => true
  | .mzero _ => true
  | .trap _ => true
  | .savec _ => true
  | .rstc _ => true
  | .sigs _ => true
  | .bkpt _ => true
  | .bankset _ => true
  | .lvcall _ => true
  | .lvret _ => true
  | _ => false

/-- Whether a code is one that the field allows (R41, R42, R221). -/
def Opnd.legal (width : Nat) : Opnd → Bool
  | .src uni code _ => if uni then code < 56 else code < 61
  | .dst _ code _ => code == 0 || (16 ≤ code && code ≤ 47)
  | .dstRun _ code _ run => code == 0 || (16 ≤ code && code + run ≤ 48)
  | .srcRun uni code _ run =>
    if run == 1 then (if uni then code < 56 else code < 61)
    else code + run ≤ 16 || (16 ≤ code && code + run ≤ 48)
  | .base _ _ => true
  | .srcIf16 code _ => width != 16 || code < 61
  | .next _ _ => true

/-- Whether a named register may be named (R43): below the declared count, or a shadow register in a handler (R340). -/
def Env.named (e : Env) (uni : Bool) (code : Nat) : Bool :=
  !(16 ≤ code && code ≤ 47) || code - 16 < (if uni then e.ns else e.nv) || (e.handler && 24 ≤ code - 16)

/-- Whether an operand names what the kernel declared and no latch of a switching word (R43, R48). -/
def Opnd.allowed (e : Env) (sw : Bool) : Opnd → Bool
  | .src uni code _ => e.named uni code && !(sw && 48 ≤ code && code ≤ 51)
  | .dst uni code _ => e.named uni code
  | .dstRun uni code _ run => code == 0 || (List.range run).all fun i => e.named uni (code + i)
  | .srcRun uni code _ run => (List.range run).all (fun i => e.named uni (code + i)) && !(sw && 48 ≤ code && code ≤ 51)
  | .base n _ => n < e.ns
  | .srcIf16 code _ => e.width != 16 || (e.named false code && !(sw && 48 ≤ code && code ≤ 51))
  | .next code _ => !(16 ≤ code) || e.named true (code + 1)

/-- The lowest word bit of an operand field. -/
def Opnd.bit : Opnd → Nat
  | .src _ _ b => b
  | .dst _ _ b => b
  | .dstRun _ _ b _ => b
  | .srcRun _ _ b _ => b
  | .base _ b => b
  | .srcIf16 _ b => b
  | .next _ b => b

/-- The lowest bit among the failing checks. -/
def lowestBad (l : List (Bool × Nat)) : Option Nat :=
  l.foldl (fun a e => if e.1 then a else match a with
    | none => some e.2
    | some b => some (min b e.2)) none

/-- Uniform opcodes 0x78 to 0x7A, which only firmware cores execute (R50). -/
def firmwareOnly : Instr → Bool
  | .lvcall _ => true
  | .lvret _ => true
  | .rgset _ => true
  | _ => false

/-- Whether an instruction's word belongs to the lane set. -/
def isLaneWord (i : Instr) : Bool :=
  match encodeHead i with
  | some w => !flag 31 w
  | none => false

/-- The decode cause of a word whose opcode is assigned, with the word bit that TINFO [39:32] receives (R53, R54). -/
def decodeFault (e : Env) (i : Instr) : Option (Nat × Nat) :=
  if e.firmware && isLaneWord i then some (0x041, 0)
  else if !e.firmware && firmwareOnly i then some (0x141, 0)
  else
    match lowestBad (fieldChecks e i ++ (operands i).map fun o => (o.legal e.width, o.bit)) with
    | some b => some (0x042, b)
    | none =>
      match lowestBad ((operands i).map fun o => (o.allowed e (isSwitching i), o.bit)) with
      | some b => some (0x043, b)
      | none => none

end Sys2Proof
end

