-- ==== Sys2Proof/Machine/Operands.lean ====
section
/-! DEFINITION. Operand forms: which lanes and bytes an instruction acts on (R10, R98), how sources read (R41), the causes
of reading them (R104, R106, R140, R215), how results are written back (R99, R100), and how pending entries are made and
filled (R103). -/

namespace Sys2Proof.Machine

open Sys2Proof

/-! ### Lanes -/

/-- A list with each element changed by its place. -/
def mapPlace {α : Type} (f : Nat → α → α) : Nat → List α → List α
  | _, [] => []
  | i, a :: r => f i a :: mapPlace f (i + 1) r

/-- A default lane, for a place beyond the warp's width. -/
def Lane.absent : Lane := { q := [], v := [], p := [], n := 0, tag := 0xFF, sr := 0 }

/-- A lane of a warp. -/
def Warp.lane (x : Warp) (l : Nat) : Lane := x.lanes.getD l Lane.absent

/-- The four bits of a lane predicate; p7 reads 1 in every bit (R109). -/
def Lane.pred (a : Lane) (p : Nat) : BitVec 4 := if p = 7 then 15 else a.p.getD p 0

/-- The four guard bits of a lane, after the negate bit (R98). -/
def Lane.guard (a : Lane) (g : BitVec 3) (neg : Bool) : BitVec 4 :=
  if neg then ~~~(a.pred g.toNat) else a.pred g.toNat

/-- The mask of the lanes below the width that satisfy a test. -/
def maskOf (w : Nat) (f : Nat → Bool) : LaneMask :=
  BitVec.ofNat 64 ((List.range w).foldl (fun a l => if f l then a + 2 ^ l else a) 0)

/-- Whether a lane belongs to the split with counter 0 (R98). -/
def Warp.on (x : Warp) (p : Split) (l : Nat) : Bool := p.mask.getLsbD l && (x.lane l).n == 0

/-- The active lanes of a word: in the split, counter 0, guard bit 0 true (R10, R98). -/
def Warp.active (x : Warp) (p : Split) (g : BitVec 3) (neg : Bool) : LaneMask :=
  maskOf x.width fun l => x.on p l && ((x.lane l).guard g neg).getLsbD 0

/-- The bytes of lane l whose element is enabled, for elements of `n` bytes (1, 2 or 4): an element is enabled by the guard
bit of its lowest byte (R98). -/
def Warp.enabled (x : Warp) (p : Split) (g : BitVec 3) (neg : Bool) (n l : Nat) : BitVec 4 :=
  if x.on p l then
    let h := (x.lane l).guard g neg
    if n = 1 then h
    else if n = 2 then
      (if h.getLsbD 0 then 3 else 0) ||| (if h.getLsbD 2 then 12 else 0)
    else if h.getLsbD 0 then 15 else 0
  else 0

/-- A uniform predicate; c7 reads 1 (R109). -/
def Warp.cpred (x : Warp) (i : Nat) : Bool := i == 7 || x.c.getLsbD i

/-- A uniform guard after its negate bit (R35). -/
def Warp.cguard (x : Warp) (g : BitVec 3) (neg : Bool) : Bool := x.cpred g.toNat != neg

/-! ### Sources -/

/-- Constants 52 to 55 as two's-complement integers of w bits (R41). -/
def constInt (w i : Nat) : Nat := if i = 0 then 0 else if i = 1 then 1 else if i = 2 then 2 ^ w - 1 else 2

/-- Two equal halves. -/
def twoHalves (h : Nat) : Word := BitVec.ofNat 32 (h * 65537)

/-- How an opcode reads the four constants (R41). -/
inductive Const where
  /-- Integers of 8, 16 or 32 bits in every element. -/
  | int (w : Nat)
  /-- F32 values. -/
  | f32
  /-- BF16 values in both halves. -/
  | bf16
  /-- FP16 values in both halves. -/
  | f16
  /-- E4M3 values in every byte. -/
  | e4m3
  /-- E5M2 values in every byte. -/
  | e5m2
  /-- E3M2 values in every byte slot. -/
  | e3m2
  /-- E2M3 values in every byte slot. -/
  | e2m3
  /-- E2M1 values in every nibble. -/
  | e2m1
  deriving DecidableEq, Repr

/-- The constant of code 52 + i as an opcode reads it (R41): 0, 1, −1 and 2 in its element format. -/
def Const.word (c : Const) (i : Nat) : Word :=
  match c with
  | .int w => if w = 8 then BitVec.ofNat 32 (constInt 8 i * 0x01010101) else if w = 16 then twoHalves (constInt 16 i)
              else BitVec.ofNat 32 (constInt 32 i)
  | .f32 => BitVec.ofNat 32 ([0, 0x3F800000, 0xBF800000, 0x40000000].getD i 0)
  | .bf16 => twoHalves ([0, 0x3F80, 0xBF80, 0x4000].getD i 0)
  | .f16 => twoHalves ([0, 0x3C00, 0xBC00, 0x4000].getD i 0)
  | .e4m3 => BitVec.ofNat 32 ([0, 0x38, 0xB8, 0x40].getD i 0 * 0x01010101)
  | .e5m2 => BitVec.ofNat 32 ([0, 0x3C, 0xBC, 0x40].getD i 0 * 0x01010101)
  | .e3m2 => BitVec.ofNat 32 ([0, 0x0C, 0x2C, 0x10].getD i 0 * 0x01010101)
  | .e2m3 => BitVec.ofNat 32 ([0, 0x08, 0x28, 0x10].getD i 0 * 0x01010101)
  | .e2m1 => BitVec.ofNat 32 ([0, 0x2, 0xA, 0x4].getD i 0 * 0x11111111)

/-- The cell a lane source code names in a lane (Table 3a of R41). -/
def Warp.src (x : Warp) (p : Split) (k : Const) (code l : Nat) : Cell32 :=
  if code < 16 then (x.lane l).q.getD code (Cell32.of 0)
  else if code < 48 then (x.lane l).v.getD (code - 16) (Cell32.of 0)
  else if code < 52 then ((p.l.getD (code - 48) LatchL.empty).cells.getD l (Cell32.of 0))
  else if code < 56 then Cell32.of (k.word (code - 52))
  else if code < 60 then
    let c := x.k.getD (code - 56) (Cell64.of 0)
    { v := c.v.setWidth 32, pend := c.pend.map fun e => { op := e.1, word := e.2, bytes := 15 }, poison := c.poison }
  else Cell32.of (BitVec.ofNat 32 l)

/-- The value a lane source code names in a lane. -/
def Warp.val (x : Warp) (p : Split) (k : Const) (code l : Nat) : Word := (x.src p k code l).v

/-- The cell a uniform source code names (Table 3a of R41). -/
def Warp.usrc (x : Warp) (p : Split) (code : Nat) : Cell64 :=
  if code < 16 then x.k.getD code (Cell64.of 0)
  else if code < 48 then x.s.getD (code - 16) (Cell64.of 0)
  else if code < 52 then (p.m.getD (code - 48) LatchM.empty).cell
  else Cell64.of (BitVec.ofNat 64 (constInt 64 (code - 52)))

/-- The value a uniform source code names. -/
def Warp.uval (x : Warp) (p : Split) (code : Nat) : DWord := (x.usrc p code).v

/-! ### Causes of reading (R140) -/

/-- A cause to be taken: its code, the lanes TMASK holds (none for the split's mask), TINFO [63:32], whether TPC is the
next word (R338), and whether TINFO [31:0] holds the word (it does not for a fetch fault, R286). -/
structure Trap where
  cause : Nat
  mask : Option LaneMask
  info : Nat
  after : Bool
  word : Bool
  deriving DecidableEq, Repr

/-- A cause with the split's mask. -/
def Trap.of (cause info : Nat) : Trap := { cause := cause, mask := none, info := info, after := false, word := true }

/-- A cause with a lane mask. -/
def Trap.lanes (cause info : Nat) (m : LaneMask) : Trap :=
  { cause := cause, mask := some m, info := info, after := false, word := true }

/-- A source to be checked: its set, its code and the lanes whose values are read. A uniform source that is not read has none; one
that a uniform-set word reads has all, of which the split's count. -/
structure Source where
  uni : Bool
  code : Nat
  lanes : LaneMask
  deriving DecidableEq, Repr

/-- The lowest lane of a mask that satisfies a test. -/
def lowestLane (w : Nat) (f : Nat → Bool) : Option Nat := (List.range w).find? f

/-- The cause of a source's poison marks, with the lanes that carry it (R215, R254); `res` for the mark 0x381 of a value that storage
has corrupted (R114; DEDUCED, log entry 76). -/
def Warp.poisonOf (x : Warp) (p : Split) (res : Bool) (e : Source) : Option Trap :=
  let kept (o : Option (BitVec 10)) : Option (BitVec 10) := o.filter fun c => (c == 0x381) == res
  if e.uni then
    (if e.lanes == 0 then none
     else (kept (x.usrc p e.code).poison).map fun c => Trap.lanes c.toNat e.code (e.lanes &&& p.mask))
  else
    let at_ (l : Nat) : Option (BitVec 10) := if e.lanes.getLsbD l then kept (x.src p (.int 32) e.code l).poison else none
    match lowestLane x.width fun l => (at_ l).isSome with
    | some l =>
      let c := (at_ l).getD 0
      some (Trap.lanes c.toNat e.code (maskOf x.width fun j => at_ j == some c))
    | none => none

/-- 0x081 for a source latch whose valid bit is 0, whatever the guard (R106; DEDUCED, log entry 41). -/
def staleOf (p : Split) (e : Source) : Option Trap :=
  if 48 ≤ e.code && e.code ≤ 51 &&
      !(if e.uni then (p.m.getD (e.code - 48) LatchM.empty).valid else (p.l.getD (e.code - 48) LatchL.empty).valid)
  then some (Trap.of 0x081 e.code) else none

/-- Whether an operation of a warp is withdrawn: once SAVEC has withdrawn it, what it is to fill is not pending (R347). -/
def Warp.withdrew (x : Warp) (op : Nat) : Bool := x.withdrawn.any fun o => o.id == op

/-- 0x082 for a source pending in a lane that is read; a uniform source has one mark, found by every lane whose value the word
reads (R104). -/
def Warp.pendingOf (x : Warp) (p : Split) (e : Source) : Option Trap :=
  if e.uni then
    if e.lanes == 0 || !(x.usrc p e.code).pend.any (fun z => !x.withdrew z.1) then none
    else some (Trap.lanes 0x082 e.code (e.lanes &&& p.mask))
  else
    let m := maskOf x.width fun l => e.lanes.getLsbD l && (x.src p (.int 32) e.code l).pend.any fun z => !x.withdrew z.op
    if m == 0 then none else some (Trap.lanes 0x082 e.code m)

/-- The first cause of reading the sources, in the order of R140 with R215 at its head. -/
def Warp.readCause (x : Warp) (p : Split) (l : List Source) : Option Trap :=
  match l.findSome? (x.poisonOf p false) with
  | some t => some t
  | none =>
    match l.findSome? (x.poisonOf p true) with
    | some t => some t
    | none =>
      match l.findSome? (staleOf p) with
      | some t => some t
      | none => l.findSome? (x.pendingOf p)

/-- Sources that read without a cause. -/
def Warp.readable (x : Warp) (p : Split) (l : List Source) : Except Trap Unit :=
  match x.readCause p l with
  | some t => .error t
  | none => .ok ()

/-! ### Results -/

/-- A word whose bytes come from one value where a byte mask is set and from another elsewhere. -/
def mergeBytes (m : BitVec 4) (a b : Word) : Word :=
  BitVec.ofNat 32 ((List.range 4).foldl
    (fun r i => r + (if m.getLsbD i then bitsOf 8 (8 * i) a.toNat else bitsOf 8 (8 * i) b.toNat) * 2 ^ (8 * i)) 0)

/-- The new cell of a lane whose enabled bytes are `en` (R99): its old marks stay with the bytes that stay (R103); a result
written to a named register clears its mark (DEDUCED, log entry 40). -/
def newCell (named : Bool) (en : BitVec 4) (res : Word) (old : Cell32) : Cell32 :=
  if en == 15 then Cell32.of res
  else if en == 0 then old
  else
    { v := mergeBytes en res old.v,
      pend := if named then none
              else match old.pend with
                | some e => if e.bytes &&& ~~~en == 0 then none else some { e with bytes := e.bytes &&& ~~~en }
                | none => none,
      poison := old.poison }

/-- The cell that disabled bytes keep (R99). -/
def Warp.oldCell (x : Warp) (p : Split) (nw : Bool) (d l : Nat) : Cell32 :=
  if nw then (let h := p.l.getD 0 LatchL.empty; if h.valid then h.cells.getD l (Cell32.of 0) else Cell32.of 0)
  else if d = 0 then (x.lane l).q.getD 0 (Cell32.of 0)
  else (x.lane l).v.getD (d - 16) (Cell32.of 0)

/-- A lane with a cell pushed on its queue. -/
def Lane.push (a : Lane) (c : Cell32) : Lane := { a with q := c :: a.q.take 15 }

/-- A lane with a named register replaced. -/
def Lane.setV (a : Lane) (i : Nat) (c : Cell32) : Lane := { a with v := a.v.set i c }

/-- The latches with a new lane result (R99, R105). A latch's cells carry the marks of the cells they copy: a disabled lane's copy of
a pending q0 is pending in the latch also (DEDUCED, log entry 85). -/
def shiftL (l : List LatchL) (cells : List Cell32) : List LatchL := { valid := true, cells := cells } :: l.take 3

/-- The latches with a new uniform result (R100, R105). -/
def shiftM (l : List LatchM) (c : Cell64) : List LatchM := { valid := true, cell := c } :: l.take 3

/-- Whether a write to a named register is a change that a handler's SAVEC must see (R347). -/
def Warp.touches (x : Warp) (d : Nat) : Bool := x.frozen.isSome && 16 ≤ d && d < 40

/-- The write-back of a lane-set result (R99): `en` and `res` give each lane's enabled bytes and value. -/
def Warp.writeLanes (x : Warp) (b : Bool) (p : Split) (nw : Bool) (d : Nat) (en : Nat → BitVec 4) (res : Nat → Word) :
    Warp :=
  let new (l : Nat) : Cell32 := newCell (!nw && d != 0) (en l) (res l) (x.oldCell p nw d l)
  let lanes := mapPlace (fun l a =>
    if p.mask.getLsbD l then
      (if nw then a else if d = 0 then a.push (new l) else a.setV (d - 16) (new l))
    else a) 0 x.lanes
  let cells := (List.range x.width).map fun l => if p.mask.getLsbD l then new l else Cell32.of 0
  let y := { x with lanes := lanes, dirty := x.dirty || (!nw && x.touches d) }
  y.setSplit b (some { p with l := shiftL p.l cells })

/-- The write-back of a uniform-set result (R100). -/
def Warp.writeUni (x : Warp) (b : Bool) (p : Split) (nw : Bool) (d : Nat) (g : Bool) (res : DWord) : Warp :=
  let old : Cell64 :=
    if nw then (let h := p.m.getD 0 LatchM.empty; if h.valid then h.cell else Cell64.of 0)
    else if d = 0 then x.k.getD 0 (Cell64.of 0) else x.s.getD (d - 16) (Cell64.of 0)
  let new := if g then Cell64.of res else old
  let y :=
    if nw then x
    else if d = 0 then { x with k := new :: x.k.take 15 }
    else { x with s := x.s.set (d - 16) new, dirty := x.dirty || (g && x.touches d) }
  y.setSplit b (some { p with m := shiftM p.m new })

/-- A lane predicate with bits written where `en` is set; with `andIn` the old bit is ANDed in (R110). -/
def Lane.setPred (a : Lane) (d : Nat) (andIn : Bool) (en bits : BitVec 4) : Lane :=
  let old := a.p.getD d 0
  let v := if andIn then old &&& bits else bits
  { a with p := a.p.set d ((old &&& ~~~en) ||| (v &&& en)) }

/-- The write of a lane predicate (R110). -/
def Warp.writePred (x : Warp) (p : Split) (d : Nat) (andIn : Bool) (en bits : Nat → BitVec 4) : Warp :=
  { x with lanes := mapPlace (fun l a => if p.mask.getLsbD l then a.setPred d andIn (en l) (bits l) else a) 0 x.lanes }

/-! ### Pending entries (R103) -/

/-- A cell marked pending on a word of a return. -/
def Cell32.expect (c : Cell32) (op word : Nat) : Cell32 :=
  { v := c.v, pend := some { op := op, word := word, bytes := 15 }, poison := none }

/-- A lane with E words of a return expected: pushed so that q0 is the word at the lowest address, or in a named run. A lane
that is not enabled copies q0, or keeps its registers. -/
def Lane.expect (a : Lane) (op d e : Nat) (on : Bool) : Lane :=
  if d = 0 then
    (List.range e).foldl (fun a i =>
      let q0 := a.q.getD 0 (Cell32.of 0)
      a.push (if on then q0.expect op (e - 1 - i) else q0)) a
  else if on then
    (List.range e).foldl (fun a i =>
      a.setV (d - 16 + i) ((a.v.getD (d - 16 + i) (Cell32.of 0)).expect op i)) a
  else a

/-- A warp with the destination of a lane load marked pending in the active lanes (R103, R221). -/
def Warp.expectLanes (x : Warp) (p : Split) (op d e : Nat) (act : LaneMask) : Warp :=
  { x with lanes := mapPlace (fun l a => if p.mask.getLsbD l then a.expect op d e (act.getLsbD l) else a) 0 x.lanes,
           dirty := x.dirty || (act != 0 && x.touches d) }

/-- A cell marked pending on a word of a return. -/
def Cell64.expect (c : Cell64) (op word : Nat) : Cell64 := { v := c.v, pend := some (op, word), poison := none }

/-- A warp with the destination of a uniform load marked pending; with a false guard a push copies k0 (R100, R103, R252). -/
def Warp.expectUni (x : Warp) (op d e : Nat) (g : Bool) : Warp :=
  if d = 0 then
    (List.range e).foldl (fun x i =>
      let k0 := x.k.getD 0 (Cell64.of 0)
      { x with k := (if g then k0.expect op (e - 1 - i) else k0) :: x.k.take 15 }) x
  else if g then
    (List.range e).foldl (fun x i =>
      { x with s := x.s.modify (d - 16 + i) (·.expect op i), dirty := x.dirty || x.touches d }) x
  else x

/-- A lane cell filled by a return (R103). -/
def Cell32.fill (c : Cell32) (op word : Nat) (v : Word) (poison : Option (BitVec 10)) : Cell32 :=
  match c.pend with
  | some e =>
    if e.op = op ∧ e.word = word then
      { v := mergeBytes e.bytes v c.v, pend := none, poison := if poison.isSome then poison else c.poison }
    else c
  | none => c

/-- A uniform cell filled by a return (R103). -/
def Cell64.fill (c : Cell64) (op word : Nat) (v : DWord) (poison : Option (BitVec 10)) : Cell64 :=
  if c.pend = some (op, word) then { v := v, pend := none, poison := poison } else c

/-- A split with a lane's latch cells changed. -/
def Split.mapL (p : Split) (l : Nat) (f : Cell32 → Cell32) : Split :=
  { p with l := p.l.map fun h => { h with cells := h.cells.modify l f } }

/-- A split with its uniform latches changed. -/
def Split.mapM (p : Split) (f : Cell64 → Cell64) : Split := { p with m := p.m.map fun h => { h with cell := f h.cell } }

/-- A lane with every cell changed. -/
def Lane.mapCells (a : Lane) (f : Cell32 → Cell32) : Lane := { a with q := a.q.map f, v := a.v.map f }

/-- A warp with every copy of a lane's cells changed, wherever it now stands: queue, registers, latches, frozen state and
inline frames (R103, R339, R196). -/
def Warp.mapLane (x : Warp) (l : Nat) (f : Cell32 → Cell32) : Warp :=
  let sp (o : Option Split) : Option Split := o.map fun p => p.mapL l f
  { x with
    lanes := x.lanes.modify l (·.mapCells f), a := sp x.a, b := sp x.b,
    frozen := x.frozen.map fun z => { z with
      lanes := z.lanes.modify l fun h => { h with q := h.q.map f, vhi := h.vhi.map f }, a := sp z.a, b := sp z.b },
    inline := x.inline.map fun z => { z with lanes := z.lanes.modify l (·.mapCells f), a := sp z.a, b := sp z.b } }

/-- A warp with every copy of a uniform cell changed, wherever it now stands. -/
def Warp.mapUni (x : Warp) (f : Cell64 → Cell64) : Warp :=
  let sp (o : Option Split) : Option Split := o.map fun p => p.mapM f
  { x with
    k := x.k.map f, s := x.s.map f, a := sp x.a, b := sp x.b,
    frozen := x.frozen.map fun z => { z with k := z.k.map f, shi := z.shi.map f, a := sp z.a, b := sp z.b },
    inline := x.inline.map fun z => { z with k := z.k.map f, s := z.s.map f, a := sp z.a, b := sp z.b },
    fw := x.fw.map fun w => { w with banks := w.banks.map fun e =>
      (e.1, { e.2 with k := e.2.k.map f, s := e.2.s.map f, m := e.2.m.map fun h => { h with cell := f h.cell } }) } }

/-- A warp with one lane's word of a return delivered. -/
def Warp.deliver (x : Warp) (l op word : Nat) (v : Word) (poison : Option (BitVec 10)) : Warp :=
  x.mapLane l fun c => c.fill op word v poison

/-- A warp with a uniform word of a return delivered. -/
def Warp.deliverUni (x : Warp) (op word : Nat) (v : DWord) (poison : Option (BitVec 10)) : Warp :=
  x.mapUni fun c => c.fill op word v poison

end Sys2Proof.Machine
end

