-- ==== Sys2Proof/Machine/Flags.lean ====
section
/-! DEFINITION. The flags of FPC (R154 to R156): raising them, and the ARITH cause of the conditions whose trap enables
are 1. -/

namespace Sys2Proof.Machine

open Sys2Proof

/-- The rounding mode that FPC holds (R154). -/
def Warp.rnd (x : Warp) : Rnd := rndOf (bitsOf 3 0 x.fpc.toNat)

/-- The rounding mode of a conversion: its RM field, or FPC's for code 7 (R46). -/
def Warp.rndFor (x : Warp) (rm : BitVec 3) : Rnd := if rm == 7 then x.rnd else rndOf rm.toNat

/-- A warp's flags raised in FPC (R155), a change that a handler's SAVEC must see (R347). -/
def Warp.raise (x : Warp) (flags : Nat) : Warp :=
  let f := x.fpc ||| BitVec.ofNat 64 (flags * 8)
  { x with fpc := f, dirty := x.dirty || (x.frozen.isSome && f != x.fpc) }

/-- The ARITH cause of conditions whose trap enables are 1: the earliest of Table 6 (R156), given the flags each lane raises. -/
def arithCause (fpc : DWord) (w : Nat) (flags : Nat → Nat) : Option Trap :=
  ([(16, 0x0C1, 12), (8, 0x0C2, 11), (4, 0x0C3, 10), (2, 0x0C4, 9), (1, 0x0C5, 8)] : List (Nat × Nat × Nat)).findSome?
    fun e =>
      let m := maskOf w fun l => flags l / e.1 % 2 == 1
      if fpc.getLsbD e.2.2 && m != 0 then some (Trap.lanes e.2.1 0 m) else none

end Sys2Proof.Machine
end

