-- ==== Sys2Proof/Machine/Crypto.lean ====
section
/-! DEFINITION. The published functions that the spec names: SHA-512 and the RSASSA-PSS signature (R400, R403), and
AES-256-XTS (R236, R237). Their definitions are in no file of the spec (PRESUMED, log entries 15 and 18). -/

namespace Sys2Proof

/-! ### SHA-512 -/

/-- A number modulo 2⁶⁴. -/
def mod64 (n : Nat) : Nat := n % 2 ^ 64

/-- A 64-bit number rotated right. -/
def rotr64 (n x : Nat) : Nat := mod64 (x / 2 ^ n + x * 2 ^ (64 - n))

/-- A number of bytes, the most significant first. -/
def bytesBe (n w : Nat) : List Byte := (toBytes n w).reverse

/-- The number whose bytes are given, the most significant first. -/
def natBe (b : List Byte) : Nat := ofBytes b.reverse

/-- The first forty round constants of SHA-512. -/
def shaConstsA : List Nat :=
  [0x428A2F98D728AE22, 0x7137449123EF65CD, 0xB5C0FBCFEC4D3B2F, 0xE9B5DBA58189DBBC, 0x3956C25BF348B538,
   0x59F111F1B605D019, 0x923F82A4AF194F9B, 0xAB1C5ED5DA6D8118, 0xD807AA98A3030242, 0x12835B0145706FBE,
   0x243185BE4EE4B28C, 0x550C7DC3D5FFB4E2, 0x72BE5D74F27B896F, 0x80DEB1FE3B1696B1, 0x9BDC06A725C71235,
   0xC19BF174CF692694, 0xE49B69C19EF14AD2, 0xEFBE4786384F25E3, 0x0FC19DC68B8CD5B5, 0x240CA1CC77AC9C65] ++
  [0x2DE92C6F592B0275, 0x4A7484AA6EA6E483, 0x5CB0A9DCBD41FBD4, 0x76F988DA831153B5, 0x983E5152EE66DFAB,
   0xA831C66D2DB43210, 0xB00327C898FB213F, 0xBF597FC7BEEF0EE4, 0xC6E00BF33DA88FC2, 0xD5A79147930AA725,
   0x06CA6351E003826F, 0x142929670A0E6E70, 0x27B70A8546D22FFC, 0x2E1B21385C26C926, 0x4D2C6DFC5AC42AED,
   0x53380D139D95B3DF, 0x650A73548BAF63DE, 0x766A0ABB3C77B2A8, 0x81C2C92E47EDAEE6, 0x92722C851482353B]

/-- The last forty round constants of SHA-512. -/
def shaConstsB : List Nat :=
  [0xA2BFE8A14CF10364, 0xA81A664BBC423001, 0xC24B8B70D0F89791, 0xC76C51A30654BE30, 0xD192E819D6EF5218,
   0xD69906245565A910, 0xF40E35855771202A, 0x106AA07032BBD1B8, 0x19A4C116B8D2D0C8, 0x1E376C085141AB53,
   0x2748774CDF8EEB99, 0x34B0BCB5E19B48A8, 0x391C0CB3C5C95A63, 0x4ED8AA4AE3418ACB, 0x5B9CCA4F7763E373,
   0x682E6FF3D6B2B8A3, 0x748F82EE5DEFB2FC, 0x78A5636F43172F60, 0x84C87814A1F0AB72, 0x8CC702081A6439EC] ++
  [0x90BEFFFA23631E28, 0xA4506CEBDE82BDE9, 0xBEF9A3F7B2C67915, 0xC67178F2E372532B, 0xCA273ECEEA26619C,
   0xD186B8C721C0C207, 0xEADA7DD6CDE0EB1E, 0xF57D4F7FEE6ED178, 0x06F067AA72176FBA, 0x0A637DC5A2C898A6,
   0x113F9804BEF90DAE, 0x1B710B35131C471B, 0x28DB77F523047D84, 0x32CAAB7B40C72493, 0x3C9EBE0A15C9BEBC,
   0x431D67C49C100D4C, 0x4CC5D4BECB3E42B6, 0x597F299CFC657E2A, 0x5FCB6FAB3AD6FAEC, 0x6C44198C4A475817]

/-- The first hash value of SHA-512. -/
def shaStart : List Nat :=
  [0x6A09E667F3BCC908, 0xBB67AE8584CAA73B, 0x3C6EF372FE94F82B, 0xA54FF53A5F1D36F1, 0x510E527FADE682D1,
   0x9B05688C2B3E6C1F, 0x1F83D9ABFB41BD6B, 0x5BE0CD19137E2179]

/-- A message padded to a multiple of 128 bytes: a one bit, zeros, and its length in bits. -/
def shaPad (m : List Byte) : List Byte :=
  m ++ [0x80] ++ List.replicate ((239 - m.length % 128) % 128) 0 ++ bytesBe 16 (8 * m.length)

/-- The message schedule, the newest word first, after n more words. -/
def shaSchedule : Nat → List Nat → List Nat
  | 0, w => w
  | n + 1, w =>
    let a := w.getD 14 0
    let b := w.getD 1 0
    shaSchedule n
      (mod64 ((rotr64 19 b ^^^ rotr64 61 b ^^^ b / 2 ^ 6) + w.getD 6 0 +
        (rotr64 1 a ^^^ rotr64 8 a ^^^ a / 2 ^ 7) + w.getD 15 0) :: w)

/-- One round on the eight working values. -/
def shaRound (v : List Nat) (kw : Nat) : List Nat :=
  match v with
  | [a, b, c, d, e, f, g, h] =>
    let t1 := h + (rotr64 14 e ^^^ rotr64 18 e ^^^ rotr64 41 e) + ((e &&& f) ^^^ ((2 ^ 64 - 1 - e) &&& g)) + kw
    let t2 := (rotr64 28 a ^^^ rotr64 34 a ^^^ rotr64 39 a) + ((a &&& b) ^^^ (a &&& c) ^^^ (b &&& c))
    [mod64 (t1 + t2), a, b, c, mod64 (d + t1), e, f, g]
  | _ => v

/-- The hash value after one block of 128 bytes. -/
def shaBlock (h : List Nat) (b : List Byte) : List Nat :=
  let w := (shaSchedule 64 ((List.range 16).map fun i => natBe ((b.drop (8 * (15 - i))).take 8))).reverse
  let v := ((shaConstsA ++ shaConstsB).zip w).foldl (fun v k => shaRound v (k.1 + k.2)) h
  (h.zip v).map fun e => mod64 (e.1 + e.2)

/-- The blocks of a padded message, n of them. -/
def shaBlocks : Nat → List Byte → List Nat → List Nat
  | 0, _, h => h
  | n + 1, b, h => shaBlocks n (b.drop 128) (shaBlock h (b.take 128))

/-- The SHA-512 digest of a byte string, 64 bytes. -/
def sha512 (m : List Byte) : List Byte :=
  (shaBlocks ((shaPad m).length / 128) (shaPad m) shaStart).flatMap (bytesBe 8)

/-! ### RSASSA-PSS with SHA-512, MGF1 over SHA-512 and a 64-byte salt, for a 4,096-bit modulus (R400) -/

/-- Bytes of two strings combined by exclusive or. -/
def xorBytes (a b : List Byte) : List Byte := (a.zip b).map fun e => e.1 ^^^ e.2

/-- MGF1: n digests of a seed and a counter, joined. -/
def mgf1 (seed : List Byte) (n : Nat) : List Byte := (List.range n).flatMap fun i => sha512 (seed ++ bytesBe 4 i)

/-- The encoded message, 512 bytes: the masked data block (447 bytes, its first bit clear), the salted digest and 0xBC. -/
def pssEncode (m salt : List Byte) : List Byte :=
  let h := sha512 (List.replicate 8 0 ++ sha512 m ++ salt)
  let db := xorBytes (List.replicate 382 0 ++ [0x01] ++ salt) (mgf1 h 7)
  [db.getD 0 0 &&& 0x7F] ++ db.drop 1 ++ h ++ [0xBC]

/-- b to the power e modulo n, over the lowest k bits of e. -/
def powMod (n : Nat) : Nat → Nat → Nat → Nat
  | 0, _, _ => 1 % n
  | k + 1, b, e => (if e % 2 = 1 then b else 1) * powMod n k (b * b % n) (e / 2) % n

/-- The signature of a byte string under a modulus and a private exponent, 512 bytes. -/
def pssSign (n d : Nat) (m salt : List Byte) : List Byte := bytesBe 512 (powMod n 4096 (natBe (pssEncode m salt)) d)

/-- Whether bytes are the signature of a byte string under a modulus and a public exponent. -/
def pssVerify (n e : Nat) (m sig : List Byte) : Bool :=
  let em := bytesBe 512 (powMod n 4096 (natBe sig) e)
  let h := (em.drop 447).take 64
  let db := xorBytes (em.take 447) (mgf1 h 7)
  let db := [db.getD 0 0 &&& 0x7F] ++ db.drop 1
  sig.length == 512 && decide (natBe sig < n) && em.getD 511 0 == 0xBC && (em.getD 0 0) &&& 0x80 == 0 &&
    db.take 383 == List.replicate 382 0 ++ [0x01] && sha512 (List.replicate 8 0 ++ sha512 m ++ db.drop 383) == h

/-! ### AES-256-XTS -/

/-- A byte times x in the field of AES. -/
def xtime (a : Nat) : Nat := if a < 128 then 2 * a else (2 * a) % 256 ^^^ 0x1B

/-- The product of two bytes in the field of AES, over the lowest k bits of the second. -/
def gfMul : Nat → Nat → Nat → Nat
  | 0, _, _ => 0
  | k + 1, a, b => (if b % 2 = 1 then a else 0) ^^^ gfMul k (xtime a) (b / 2)

/-- The inverse of a byte in the field of AES, its 254th power; 0 of 0. -/
def gfInv (a : Nat) : Nat :=
  let sq := fun x => gfMul 8 x x
  let a3 := gfMul 8 (sq a) a
  let a15 := gfMul 8 (sq (sq a3)) a3
  let a127 := gfMul 8 (sq (gfMul 8 (sq (gfMul 8 (sq a15) a)) a)) a
  sq a127

/-- A byte rotated left. -/
def rotl8 (n x : Nat) : Nat := (x * 2 ^ n + x / 2 ^ (8 - n)) % 256

/-- The substitution of AES. -/
def aesSub (x : Nat) : Nat :=
  let b := gfInv x
  b ^^^ rotl8 1 b ^^^ rotl8 2 b ^^^ rotl8 3 b ^^^ rotl8 4 b ^^^ 0x63

/-- The inverse substitution of AES. -/
def aesUnsub (x : Nat) : Nat := gfInv (rotl8 1 x ^^^ rotl8 3 x ^^^ rotl8 6 x ^^^ 0x05)

/-- Numbers of two lists combined by exclusive or. -/
def xorNats (a b : List Nat) : List Nat := (a.zip b).map fun e => e.1 ^^^ e.2

/-- The key schedule of AES-256, words of four bytes and the newest first: n more words from word i on. -/
def aesExpand : Nat → Nat → Nat → List (List Nat) → List (List Nat)
  | 0, _, _, w => w
  | n + 1, i, rcon, w =>
    let t := w.getD 0 []
    let u := if i % 8 = 0 then xorNats (((t.drop 1) ++ t.take 1).map aesSub) [rcon, 0, 0, 0]
             else if i % 8 = 4 then t.map aesSub else t
    aesExpand n (i + 1) (if i % 8 = 0 then xtime rcon else rcon) (xorNats (w.getD 7 []) u :: w)

/-- The fifteen round keys of a 32-byte key, 16 bytes each. -/
def aesKeys (key : List Nat) : List (List Nat) :=
  let w := (aesExpand 52 8 1 ((List.range 8).map fun i => (key.drop (4 * (7 - i))).take 4)).reverse
  (List.range 15).map fun r => ((w.drop (4 * r)).take 4).flatMap id

/-- The places of a block's bytes taken in another order. -/
def aesShift (back : Bool) (b : List Nat) : List Nat :=
  (List.range 16).map fun i => b.getD ((if back then i + 16 - 4 * (i % 4) else i + 4 * (i % 4)) % 16) 0

/-- One column times the fixed polynomial whose coefficients are given. -/
def aesMixCol (m c : List Nat) : List Nat :=
  (List.range 4).map fun r => (List.range 4).foldl (fun x j => x ^^^ gfMul 8 (c.getD j 0) (m.getD ((j + 4 - r) % 4) 0)) 0

/-- The four columns of a block mixed. -/
def aesMix (m b : List Nat) : List Nat := (List.range 4).flatMap fun j => aesMixCol m ((b.drop (4 * j)).take 4)

/-- A block of 16 bytes encrypted under round keys. -/
def aesEnc (keys : List (List Nat)) (b : List Nat) : List Nat :=
  let k := fun r => keys.getD r []
  let b := (List.range 13).foldl
    (fun b r => xorNats (aesMix [2, 3, 1, 1] (aesShift false (b.map aesSub))) (k (r + 1))) (xorNats b (k 0))
  xorNats (aesShift false (b.map aesSub)) (k 14)

/-- A block of 16 bytes decrypted under round keys. -/
def aesDec (keys : List (List Nat)) (b : List Nat) : List Nat :=
  let k := fun r => keys.getD r []
  let b := (List.range 13).foldl
    (fun b r => aesMix [14, 11, 13, 9] (xorNats ((aesShift true b).map aesUnsub) (k (13 - r)))) (xorNats b (k 14))
  xorNats ((aesShift true b).map aesUnsub) (k 0)

/-- The tweak of the next block. -/
def xtsNext (t : Nat) : Nat := if t < 2 ^ 127 then 2 * t else (2 * t) % 2 ^ 128 ^^^ 0x87

/-- Blocks of 16 bytes under the first key of a pair, from a tweak on, n of them. -/
def xtsBlocks (f : List Nat → List Nat) : Nat → Nat → List Nat → List Nat
  | 0, _, _ => []
  | n + 1, t, b =>
    let tw := (toBytes 16 t).map BitVec.toNat
    xorNats (f (xorNats (b.take 16) tw)) tw ++ xtsBlocks f n (xtsNext t) (b.drop 16)

/-- A data unit of whole blocks under a key pair of 64 bytes, the tweak key second; the unit's number is the tweak. -/
def xts (dec : Bool) (pair : BitVec 512) (unit : Nat) (b : List Byte) : List Byte :=
  let key := (toBytes 64 pair.toNat).map BitVec.toNat
  let keys := aesKeys (key.take 32)
  let t := ofBytes ((aesEnc (aesKeys (key.drop 32)) ((toBytes 16 unit).map BitVec.toNat)).map (BitVec.ofNat 8))
  (xtsBlocks (fun x => if dec then aesDec keys x else aesEnc keys x) (b.length / 16) t (b.map BitVec.toNat)).map (BitVec.ofNat 8)

/-- The bytes of a line written under one key pair as they read under another: what they are encrypted to under the first,
decrypted under the second (R236, R237); the tweak is PA[51:7]. -/
def recrypt (a b : BitVec 512) (line : Nat) (bytes : List Byte) : List Byte :=
  xts true b (line % 2 ^ 45) (xts false a (line % 2 ^ 45) bytes)

end Sys2Proof
end

