-- ==== Sys2Proof/Machine/Xlate.lean ====
section
/-! DEFINITION. Who accesses memory, translation (R228 to R235), keys (R236, R237), homes (R230), access tables and record
guards (R386 to R388), and the causes of an access (R255). -/

namespace Sys2Proof.Machine

open Sys2Proof

/-- An agent that accesses memory: its die, master ID (R385), partition, and the page-table root it translates through; no
root for a firmware core, whose addresses are physical (PRESUMED, log entry 5). -/
structure Who where
  die : Nat
  mid : Nat
  part : Option Nat
  root : Option Nat
  deriving DecidableEq, Repr

/-- A translated page: the physical address, the leaf's level, its type and rights, and its key index. -/
structure Leaf where
  pa : Nat
  level : Nat
  type : Nat
  hs : Bool
  x : Bool
  w : Bool
  r : Bool
  key : Option Nat
  deriving DecidableEq, Repr

/-- Bytes of HBM4E homed on one die, and behind one slice (R230). -/
def dieBytes : Nat := 96 * 2 ^ 30
/-- Bytes of HBM4E behind one slice (R230). -/
def sliceBytes : Nat := 6 * 2 ^ 30

/-- PA[51] (R229). -/
def inAperture (pa : Nat) : Bool := flag 51 pa

/-- PA[50:48] (R229). -/
def region (pa : Nat) : Nat := bitsOf 3 48 pa

/-- An enabled ATTACH entry that covers an address of regions 1 to 3 (R398). -/
def State.attachOf (s : State) (pa : Nat) : Option DWord :=
  (s.attach.find? fun e =>
    let v := e.2.toNat
    flag 63 v && bitsOf 2 61 v == region pa && bitsOf 18 30 v ≤ bitsOf 18 30 pa &&
      bitsOf 18 30 pa < bitsOf 18 30 v + bitsOf 18 0 v).map (·.2)

/-- Whether an address lies in the populated part of its region (R229, R401). -/
def State.populated (s : State) (pa : Nat) : Bool :=
  if inAperture pa then true
  else if region pa = 0 then pa < 8 * dieBytes && (s.die (pa / dieBytes)).up
  else if region pa ≤ 3 then (s.attachOf pa).isSome
  else false

/-- The slices a partition owns, numbered 16·die + slice (R382). -/
def State.slices (s : State) (p : Option Nat) : List Nat :=
  match p with
  | none => []
  | some p => ((List.range 32).filter fun q => (s.part p).quarters.getLsbD q).flatMap fun q =>
      (List.range 4).map fun i => 16 * (q / 4) + 4 * (q % 4) + i

/-- One of a list of slices by the fixed hash; a default where the list is empty. -/
def pickSlice (l : List Nat) (line dflt : Nat) : Nat :=
  if l.isEmpty then dflt else l.getD (Config.homeHash l line % l.length) dflt

/-- The home slice of a line, numbered 16·die + slice (R230). -/
def State.home (s : State) (w : Who) (pa : Nat) : Nat :=
  if !inAperture pa && region pa == 0 then 16 * (pa / dieBytes) + pa % dieBytes / sliceBytes
  else pickSlice (s.slices w.part) (pa / 128) (16 * w.die)

/-- The local slice of a TYPE 1 line on the accessing die (R244). -/
def State.localSlice (s : State) (w : Who) (pa : Nat) : Nat :=
  pickSlice ((s.slices w.part).filter fun i => i / 16 == w.die) (pa / 128) (16 * w.die)

/-! ### Translation (R231 to R233) -/

/-- The index bits of a level (Table 2 of R231). -/
def levelIndex (lvl va : Nat) : Nat :=
  if lvl = 4 then bitsOf 9 48 va else if lvl = 3 then bitsOf 9 39 va else if lvl = 2 then bitsOf 9 30 va
  else if lvl = 1 then bitsOf 9 21 va else bitsOf 5 16 va

/-- Bits of the address that a leaf of a level leaves to the page offset (R231). -/
def leafShift (lvl : Nat) : Nat := if lvl = 2 then 30 else if lvl = 1 then 21 else 16

/-- The page a leaf entry maps an address to, or 0x102 for a malformed entry (R233). -/
def leafOf (lvl va e : Nat) : Except (Nat × Nat) Leaf :=
  let ppn := bitsOf 36 15 e * 65536
  let sh := leafShift lvl
  if 3 ≤ lvl || bitsOf 5 10 e != 0 || bitsOf 2 1 e != 0 || ppn % 2 ^ sh != 0 || bitsOf 2 7 e == 3 ||
      (flag 9 e && !(region ppn == 2 && !inAperture ppn)) || (flag 6 e && flag 5 e) then .error (0x102, lvl)
  else .ok { pa := ppn + va % 2 ^ sh, level := lvl, type := bitsOf 2 7 e, hs := flag 9 e, x := flag 6 e, w := flag 5 e,
             r := flag 4 e, key := some (bitsOf 13 51 e) }

/-- The number under which a decoded line of a partition is held: different partitions' windows may share addresses
(R171; DEDUCED, log entry 38). -/
def decodedKey (part : Option Nat) (line : Nat) : Nat := line + (match part with
  | some p => p + 1
  | none => 0) * 2 ^ 46

/-- A byte of the decode aperture as L2 gives it: as it was decoded where a line stands there, else as it decodes now (R174, R175). -/
def State.apertureByte (s : State) (w : Who) (pa : Nat) : Byte :=
  match get (s.die (s.home w pa / 16)).decoded (decodedKey w.part (pa / 128)) with
  | some b => b.getD (pa % 128) 0
  | none => s.decodedByte w.part pa

/-- The port of a region 1 to 3 address: its die and target number, and whether its link is up (R398, R399). -/
def State.portOf (s : State) (pa : Nat) : Option (Nat × Nat × Bool) :=
  if inAperture pa || region pa == 0 then none
  else (s.attachOf pa).map fun e =>
    let p := bitsOf 5 56 e.toNat
    (p / 4, 18 + p % 4, ((s.die (p / 4)).ports.getD (p % 4) (false, 0)).1)

/-- Whether a request for an address meets a port whose link is down (R399). -/
def State.portDown (s : State) (pa : Nat) : Bool := (s.portOf pa).any fun e => !e.2.2

/-- An entry of a page table as the walker reads it through L2 (R234): it decodes in the aperture. -/
def State.tableEntry (s : State) (w : Who) (a : Nat) : Nat :=
  if inAperture a then ofBytes ((List.range 8).map fun i => s.apertureByte w (a + i)) else memNat s.mem a 8

/-- The walk from a table at a level downward (R231 to R233), fuel being the levels left. A table behind a port that is down reads
poisoned: the access takes 0x383, with no level (R399; DESIGN CHOICE, log entry 12). -/
def State.walk (s : State) (w : Who) (va : Nat) : Nat → Nat → Except (Nat × Nat) Leaf
  | 0, table =>
    let e := s.tableEntry w (table + 8 * levelIndex 0 va)
    if s.portDown table then .error (0x383, 15)
    else if !flag 0 e then .error (0x101, 0) else if !flag 3 e then .error (0x102, 0) else leafOf 0 va e
  | lvl + 1, table =>
    let e := s.tableEntry w (table + 8 * levelIndex (lvl + 1) va)
    if s.portDown table then .error (0x383, 15)
    else if !flag 0 e then .error (0x101, lvl + 1)
    else if flag 3 e then leafOf (lvl + 1) va e
    else if bitsOf 12 52 e != 0 || bitsOf 8 4 e != 0 || bitsOf 2 1 e != 0 then .error (0x102, lvl + 1)
    else if !s.populated (bitsOf 40 12 e * 4096) then .error (0x103, lvl + 1)
    else s.walk w va lvl (bitsOf 40 12 e * 4096)

/-- A physical page as a firmware core sees it (PRESUMED, log entry 5). -/
def Leaf.physical (va : Nat) : Leaf :=
  { pa := va % 2 ^ 52, level := 15, type := 0, hs := false, x := true, w := true, r := true, key := none }

/-- A translation held from an earlier walk: root, level, page and entry (R234). -/
def heldLeaf (tlb : List (Nat × Nat × Nat × DWord)) (root va : Nat) : Option (Nat × DWord) :=
  (tlb.find? fun e => e.1 == root && e.2.2.1 == va / 2 ^ leafShift e.2.1).map fun e => (e.2.1, e.2.2.2)

/-- Translation of a 57-bit address (R228), through a held translation where one is still held (R234). -/
def State.translate (s : State) (w : Who) (tlb : List (Nat × Nat × Nat × DWord)) (va : Nat) : Except (Nat × Nat) Leaf :=
  match w.root with
  | none => .ok (Leaf.physical va)
  | some root =>
    match heldLeaf tlb root va with
    | some (lvl, e) => if Config.tlbHeld s.free then leafOf lvl va e.toNat else s.walk w va 4 root
    | none => s.walk w va 4 root

/-- The leaf entry that a walk reads, to be held after it (R234). -/
def State.leafEntry (s : State) (w : Who) (va : Nat) : Nat → Nat → Option (Nat × DWord)
  | 0, table => some (0, BitVec.ofNat 64 (s.tableEntry w (table + 8 * levelIndex 0 va)))
  | lvl + 1, table =>
    let e := s.tableEntry w (table + 8 * levelIndex (lvl + 1) va)
    if !flag 0 e then none
    else if flag 3 e then some (lvl + 1, BitVec.ofNat 64 e) else s.leafEntry w va lvl (bitsOf 40 12 e * 4096)

/-- The translations that a core may use: its own and its cluster's (R234). -/
def State.tlb (s : State) (c : Nat) : List (Nat × Nat × Nat × DWord) :=
  (s.core c).tlb ++ ((s.die (coreDie c)).tlb.filter fun e => e.1 == coreCluster c && !isFw c).map (·.2)

/-- The state in which a core and its cluster hold the translation of an address (R234). -/
def State.hold (s : State) (c : Nat) (w : Who) (va : Nat) : State :=
  match w.root with
  | none => s
  | some root =>
    match heldLeaf (s.tlb c) root va with
    | some _ => s
    | none =>
      match s.leafEntry w va 4 root with
      | some (lvl, e) =>
        let k := s.core c
        let d := s.die (coreDie c)
        let h := (root, lvl, va / 2 ^ leafShift lvl, e)
        (s.setCore c { k with tlb := h :: k.tlb }).setDie (coreDie c) { d with tlb := (coreCluster c, h) :: d.tlb }
      | none => s

/-! ### Keys (R236, R237, R389) -/

/-- Whether the key index of a page is ignored: in regions 2 and 3 (R236). -/
def keyIgnored (pa : Nat) : Bool := !inAperture pa && (region pa == 2 || region pa == 3)

/-- Whether a key index may be used for an address by an agent (R236, R389). -/
def State.keyOk (s : State) (w : Who) (pa : Nat) (key : Option Nat) : Bool :=
  match key with
  | none => true
  | some k =>
    if keyIgnored pa then true
    else match get s.keys k with
      | some e => e.written == 0xFF && e.granted && some e.part == w.part
      | none => false

/-- The key index under which an access reads and writes stored bytes: none where keys are ignored, and none in the aperture, whose
bytes are derived (R175, R236). -/
def keyOf (pa : Nat) (key : Option Nat) : Option Nat := if keyIgnored pa || inAperture pa then none else key

/-- The key index of an access that names none. -/
def noKey : Nat := 8192

/-- The key material of a slot (R389). -/
def State.material (s : State) (k : Nat) : BitVec 512 := ((get s.keys k).map (·.material)).getD 0

/-! ### The causes of an access (R235, R255) -/

/-- Kinds of access, as TINFO [37:36] numbers them (R255). -/
inductive Kind where
  | read
  | write
  | atomic
  | range
  deriving DecidableEq, Repr

/-- The number of a kind in TINFO [37:36]. -/
def Kind.code : Kind → Nat
  | .read => 0
  | .write => 1
  | .atomic => 2
  | .range => 3

/-- The place of a cause in Table 11 of R255: the earlier wins. -/
def causeRank (c : Nat) : Nat :=
  if c = 0x084 then 0 else if c = 0x104 then 1 else if c = 0x101 then 2 else if c = 0x102 then 3
  else if c = 0x103 then 4 else if c = 0x146 then 5 else if c = 0x142 then 6 else if c = 0x143 then 7
  else if c = 0x150 then 8 else if c = 0x145 then 9 else 10

/-- The cause that a translated page gives an access, in the order of Table 11 (R255); `pkg` for an atomic or reduction at
.pkg or .sys, or a WAITV, which a TYPE 1 page refuses (R247, R269). -/
def State.pageCause (s : State) (w : Who) (k : Kind) (pkg : Bool) (l : Leaf) : Option Nat :=
  if !s.populated l.pa then some 0x103
  else if !s.keyOk w l.pa l.key then some 0x146
  else if (k == .read && !l.r) || (k == .range && !l.r && !l.w) then some 0x142
  else if (k == .write || k == .atomic) && !l.w then some 0x143
  else if (k == .write || k == .atomic) && inAperture l.pa then some 0x150
  else if pkg && l.type == 1 then some 0x145
  else none

/-- A checked access of one lane or of a uniform word: the page, or the cause with the level that TINFO [35:32] holds. -/
def State.access (s : State) (w : Who) (tlb : List (Nat × Nat × Nat × DWord)) (k : Kind) (pkg : Bool) (va size : Nat) :
    Except (Nat × Nat) Leaf :=
  if va % size != 0 then .error (0x104, 15)
  else
    match s.translate w tlb va with
    | .error e => .error e
    | .ok l =>
      match s.pageCause w k pkg l with
      | some c => .error (c, l.level)
      | none => .ok l

/-- TINFO [63:32] of a memory cause (R255): the level, and the kind above it. -/
def memInfo (level : Nat) (k : Kind) : Nat := level + 16 * k.code

/-! ### Access tables, record guards and refusal logs (R386 to R388) -/

/-- The offset of a target's access table in the die control block (Table 3 of R387): targets 0 to 21 as R388 numbers them,
and 32 + s for L2 slice s. -/
def tableOff (t : Nat) : Nat :=
  if t < 16 then 0x20000 + 0x200 * t else if t = 16 then 0x22000 else if t = 17 then 0x22200
  else if t < 32 then 0x22400 + 0x200 * (t - 18) else 0x10000 + 0x1000 * (t - 32)

/-- The RD and WR bits of a target's access table for a master ID (R386). -/
def State.tableBits (s : State) (d t mid : Nat) : Nat :=
  bitsOf 2 (2 * (mid % 4)) (memGet s.ctrl (d * 2 ^ 24 + tableOff t + mid / 4)).toNat

/-- Whether a record guard of a slice refuses a write (R387). -/
def State.guarded (s : State) (d sl mid pa : Nat) : Bool :=
  (List.range 64).any fun i =>
    let g := memNat s.ctrl (d * 2 ^ 24 + 0x10200 + 0x1000 * sl + 8 * i) 8
    flag 63 g && bitsOf 36 16 g * 65536 ≤ pa && pa < bitsOf 36 16 g * 65536 + 131072 && bitsOf 11 0 g != mid

/-- Whether a target lets a request through (R386, R387): kind 0 read, 1 write or atomic, 2 engine command or doorbell. -/
def State.admits (s : State) (d t mid kind pa : Nat) : Bool :=
  (if kind = 0 then s.tableBits d t mid % 2 == 1 else s.tableBits d t mid / 2 == 1) &&
    !(32 ≤ t && kind == 1 && s.guarded d (t - 32) mid pa)

/-- The partition a master ID acts for (R385). -/
def State.partOfMid (s : State) (mid : Nat) : Option Nat :=
  let d := mid / 256
  let u := mid % 256
  if u < 0x40 then s.partOf (64 * d + u)
  else if u < 0x80 then s.partOf (64 * d + (u - 0x40))
  else if u < 0x90 then s.partOf (64 * d + 4 * (u - 0x80))
  else if 0xC0 ≤ u && u < 0xC4 then s.partOf (64 * d + 16 * (u - 0xC0))
  else none

/-- The master ID of a partition's proxy: that of its lowest-numbered quarter (R385). -/
def State.proxyMid (s : State) (p : Nat) : Nat :=
  let q := ((List.range 32).find? fun q => (s.part p).quarters.getLsbD q).getD 0
  q / 4 * 256 + 0xC0 + q % 4

/-- A partition's slices on a die as an agent: what they write back of their own accord carries the proxy's ID, as shared agents that act
for a partition do (R385; DESIGN CHOICE, log entry 38). -/
def State.sliceWho (s : State) (d : Nat) (part : Option Nat) : Who :=
  { die := d, mid := (part.map s.proxyMid).getD 0, part := part, root := none }

/-- The state after a target has refused a request: the log entry, the count of entries pushed out, and REFUSED of the
partition (R388). -/
def State.refuse (s : State) (d t mid kind pa : Nat) : State :=
  let k := 64 * d + t
  let log := (get s.logs k).getD ([], 0)
  let entry : DWord := BitVec.ofNat 64 (mid * 2 ^ 53 + kind * 2 ^ 51 + pa / 128 % 2 ^ 45)
  let n := if 16 ≤ log.1.length then min (2 ^ 64 - 1) (log.2 + 1) else log.2
  let s := { s with logs := put s.logs k ((entry :: log.1).take 16, n) }
  match s.partOfMid mid with
  | some p => s.setPart p { s.part p with refused := true }
  | none => s

/-- What a target answers a request: nothing, or the cause its read is poisoned with, with the refusal logged (R254, R257, R386). -/
def State.passTarget (s : State) (d t mid kind pa : Nat) : State × Option (BitVec 10) :=
  if s.admits d t mid kind pa then (s, none) else (s.refuse d t mid kind pa, some 0x144)

/-- What the port of an address answers a request, if it has one (R386, R399). -/
def State.passPort (s : State) (mid kind pa : Nat) : State × Option (BitVec 10) :=
  match s.portOf pa with
  | none => (s, none)
  | some (d, t, up) =>
    if !s.admits d t mid kind pa then (s.refuse d t mid kind pa, some 0x144)
    else if up then (s, none)
    else if kind = 0 then (s, some 0x383) else (s.refuse d t mid kind pa, some 0x383)

/-- What stands between an agent and the slice at which an access of a type is performed, and, where the access goes on to the line's
memory, the port (R254, R257, R386, R399). -/
def State.pass (s : State) (w : Who) (type kind pa : Nat) (beyond : Bool) : State × Option (BitVec 10) :=
  let h := if type = 1 then s.localSlice w pa else s.home w pa
  let r := s.passTarget (h / 16) (32 + h % 16) w.mid kind pa
  if r.2.isSome || !beyond then r else s.passPort w.mid kind pa

end Sys2Proof.Machine
end

