-- ==== Sys2Proof/Machine/Phys.lean ====
section
/-! DEFINITION. Where accesses are performed (R242 to R247, R256, R264, R265): the home of a line, the copies that dies
hold, the clocks that order them, and publish state (R279). -/

namespace Sys2Proof.Machine

open Sys2Proof

/-! ### Stored bytes under keys (R237) -/

/-- The 128 bytes of a line as memory stores them. -/
def State.lineBytes (s : State) (line : Nat) : List Byte := memRead s.mem (128 * line) 128

/-- The key material under which memory holds a line when it is next filled: where L2 holds newer bytes of the line under an index, they
are first written back under it (R237). -/
def State.stored (s : State) (line : Nat) (e : LineKey) : BitVec 512 :=
  if e.cached && (get s.l2old line).isSome then s.material e.index else e.mat

/-- What a line's bytes are encrypted from and decrypted with, where an access under a key index does not hit it: nothing while L2
holds it under that index, and nothing where the two are the same (R237). -/
def State.reading (s : State) (line : Nat) (key : Option Nat) : Option (BitVec 512 × BitVec 512) :=
  match key, get s.lineKeys line with
  | some k, some e =>
    if e.cached && e.index == k || s.stored line e == s.material k then none else some (s.stored line e, s.material k)
  | _, _ => none

/-- n bytes of memory at an address, read under a key index; a line that no key was used for reads as it stands. -/
def State.plain (s : State) (pa n : Nat) (key : Option Nat) : List Byte :=
  (List.range n).map fun i =>
    let line := (pa + i) / 128
    match s.reading line key with
    | none => memGet s.mem (pa + i)
    | some (a, b) => (recrypt a b line (s.lineBytes line)).getD ((pa + i) % 128) 0

/-- The state in which a line stands under a key index: held by L2 from now on, or, where a write goes past L2, in memory; what L2 held
under another index has been written back first (R237). -/
def State.rekey (s : State) (line : Nat) (key : Option Nat) (l2 : Bool) : State :=
  match key, get s.lineKeys line with
  | none, _ => s
  | some k, none => { s with lineKeys := put s.lineKeys line { index := k, cached := l2, mat := s.material k } }
  | some k, some e =>
    if e.cached && e.index == k then s
    else
      let mem := match s.reading line key with
        | none => s.mem
        | some (a, b) => memWrite s.mem (128 * line) (recrypt a b line (s.lineBytes line))
      { s with mem := mem, l2old := del s.l2old line, lineKeys := put s.lineKeys line { index := k, cached := l2, mat := s.material k } }

/-- The state after L2 has been filled with a line for a read under a key index (R237). -/
def State.fillL2 (s : State) (line : Nat) (key : Option Nat) : State :=
  if (get s.lineKeys line).isSome then s.rekey line key true else s

/-- The state in which L2 holds a line no more: what it held dirty is written back under its index (R237). -/
def State.unkey (s : State) (line : Nat) : State :=
  match get s.lineKeys line with
  | none => s
  | some e =>
    { s with lineKeys := put s.lineKeys line { e with cached := false, mat := s.stored line e } }

/-- Bytes at offsets patched into a line's bytes. -/
def patchBytes (b : List Byte) (off : Nat) (l : List (Nat × Byte)) : List Byte :=
  l.foldl (fun b e => b.set (off + e.1) e.2) b

/-- What HBM4E holds of a line whose home L2 holds newer bytes (R175): kept at the first write in L2, patched by a write that
goes to memory. -/
def State.keepOld (s : State) (pa : Nat) (l : List (Nat × Byte)) (l2 : Bool) : List (Nat × List Byte) :=
  let line := pa / 128
  if l2 then
    match get s.l2old line with
    | some _ => s.l2old
    | none => put s.l2old line (s.lineBytes line)
  else mapAt s.l2old line fun b => patchBytes b (pa % 128) l

/-- The number under which a home slice keeps the publish state of a line: a line of regions 1 to 3 has one at each slice that homes it
for some partition (R230, R280). -/
def State.pubKey (s : State) (w : Who) (line : Nat) : Nat :=
  if region (128 * line) = 0 || inAperture (128 * line) then line else line + (s.home w (128 * line) + 1) * 2 ^ 46

/-- Bytes written at offsets from an address, in one line, under a key index, in L2 or in memory; the line becomes
UNPUBLISHED (R279) and the write is counted for WAITV (R269). -/
def State.storeLine (s : State) (pa : Nat) (l : List (Nat × Byte)) (key : Option Nat) (l2 : Bool) : State :=
  let line := pa / 128
  let s := s.rekey line key l2
  { s with mem := memPatch s.mem pa l, pubs := s.pubs.filter fun e => e.1 % 2 ^ 46 != line, l2old := s.keepOld pa l l2,
           writes := put s.writes line ((get s.writes line).getD 0 + 1) }

/-! ### Clocks (R264) -/

/-- Whether clock a covers clock b. -/
def covers (a b : List Nat) : Bool := (List.range 8).all fun i => b.getD i 0 ≤ a.getD i 0

/-- Whether a die has applied everything another has. -/
def State.caughtUp (s : State) (d e : Nat) : Bool := d == e || covers (s.die d).clock (s.die e).clock

/-- The join of two clocks. -/
def joinClocks (a b : List Nat) : List Nat := (List.range 8).map fun i => max (a.getD i 0) (b.getD i 0)

/-- The clock that a read of a line carries from its home: that of the die that wrote it last, joined over its writes
(R264, DEDUCED, log entry 20). -/
def State.lineClock (s : State) (line : Nat) : List Nat := (get s.lineClocks line).getD []

/-- Whether a die has applied every write that a read of a line carries (R264). -/
def State.readyFor (s : State) (d line : Nat) : Bool := covers (s.die d).clock (s.lineClock line)

/-- The state in which a line has been dropped from every L1, L0 and instruction cache of a die. -/
def State.dropCached (s : State) (d line : Nat) : State :=
  let x := s.die d
  let s := s.setDie d { x with l1 := x.l1.filter fun e => e.2 != line }
  { s with cores := s.cores.map fun k =>
      if coreDie k.1 = d then (k.1, { k.2 with leases := del k.2.leases line, ileases := del k.2.ileases line })
      else k }

/-- Whether every die that is up has applied the messages that a set of stamps names (R264). -/
def State.applied (s : State) (stamped : List Nat) : Bool :=
  (List.range 8).all fun e => !(s.die e).up || covers (s.die e).clock stamped

/-- A write by die d to a line homed on die h: where another die may hold a copy, or the home is another die, the writer
counts and stamps, the home applies at once, and every other die is sent the stamp (R264). -/
def State.announce (s : State) (d h line : Nat) : State :=
  if d = h ∧ !s.dies.any (fun e => e.copies0.any fun c => c.1 == line) then
    { s with lineClocks := put s.lineClocks line (joinClocks (s.lineClock line) (s.die d).clock) }
  else
    let stamp := (s.die d).clock.modify d (· + 1)
    { s with
      lineClocks := put s.lineClocks line (joinClocks (s.lineClock line) stamp),
      dies := mapPlace (fun e x =>
        let x := if e = d ∨ e = h then { x with copies0 := del x.copies0 line } else x
        if e = d then { x with clock := stamp }
        else if e = h then { x with clock := x.clock.set d (stamp.getD d 0) }
        else { x with inbox := x.inbox ++ [{ src := d, stamp := stamp, line := line }] }) 0 s.dies }

/-- The state after a warp's store turned s into t. A run of stores of that warp alone on its die is noted. Where the store sent no
message and releases nothing beyond its die, a read of the line carries what causally precedes the store, which the stamps of that run
do not (R261, R264; how much more it carries is not stated: log entry 20). -/
def State.storedBy (s t : State) (c w line : Nat) (wide : Bool) : State :=
  let clock := (s.die (coreDie c)).clock
  let n := clock.getD (coreDie c) 0
  let m := (t.die (coreDie c)).clock.getD (coreDie c) 0
  let before := match s.solo with
    | some e => if e.core = c ∧ e.slot = w ∧ e.last = n then e.before else n
    | none => n
  if m ≠ n then { t with solo := some { core := c, slot := w, before := before, last := m } }
  else if wide || t.lineClock line == s.lineClock line || Config.choice s.free then t
  else { t with lineClocks := put t.lineClocks line (joinClocks (s.lineClock line) (clock.set (coreDie c) before)) }

/-- The stamps of an agent after a write by die d turned one state into another (R264). -/
def restamp (s t : State) (d : Nat) (stamped : List Nat) : List Nat :=
  if (t.die d).clock = (s.die d).clock then stamped else stamped.set d ((t.die d).clock.getD d 0)

/-! ### TYPE 1 copies (R244) -/

/-- Whether a copy is of a line in a partition's slices. -/
def Copy1.isOf (c : Copy1) (part : Option Nat) (line : Nat) : Bool := c.line == line && c.part == part

/-- A die's copy of a line in a partition's slices. -/
def Die.copy1 (x : Die) (part : Option Nat) (line : Nat) : Option Copy1 := x.copies1.find? fun c => c.isOf part line

/-- A die with a copy replaced or added. -/
def Die.setCopy1 (x : Die) (c : Copy1) : Die :=
  { x with copies1 := c :: x.copies1.filter fun e => !e.isOf c.part c.line }

/-- A die without its copy of a line in a partition's slices. -/
def Die.dropCopy1 (x : Die) (part : Option Nat) (line : Nat) : Die :=
  { x with copies1 := x.copies1.filter fun e => !e.isOf part line }

/-- The dirty bytes of a copy, with their offsets in the line. -/
def Copy1.dirtyBytes (c : Copy1) : List (Nat × Byte) := c.bytes.filter fun e => c.dirty.getLsbD e.1

/-- Whether the host owns a sector that bytes of a line at an offset fall in (R245). -/
def State.hostOwns (s : State) (line off : Nat) : Bool := (((get s.sectors line).getD []).getD (off / 64) none).isSome

/-- The dirty bytes of a die's copy written to the line's memory, as a write of the agent that has them written back, and the mask
cleared (R244). A target that refuses the write, or a port that is down, writes nothing (R254, R386, R399); where the host owns a
sector that they fall in, they wait (R245). -/
def State.writeBack (s : State) (w : Who) (line : Nat) : State :=
  match (s.die w.die).copy1 w.part line with
  | none => s
  | some c =>
    if c.dirty == 0 || (c.hs && c.dirtyBytes.any fun e => s.hostOwns line e.1) then s
    else
      let h := s.home w (128 * line)
      let r := s.passTarget (h / 16) (32 + h % 16) w.mid 1 (128 * line)
      let r := if r.2.isSome then r else r.1.passPort w.mid 1 (128 * line)
      let t := if r.2.isSome then r.1
        else (r.1.storeLine (128 * line) c.dirtyBytes c.key false).announce w.die (h / 16) line
      t.setDie w.die ((t.die w.die).setCopy1 { c with dirty := 0 })

/-- Whether a die's copy of a line still has dirty bytes, which wait for the host (R245). -/
def State.owesBack (s : State) (w : Who) (line : Nat) : Bool := ((s.die w.die).copy1 w.part line).any fun c => c.dirty != 0

/-- The copy of a line that an access under a key index uses: a new one where the die has none, or has one under another
key, which is first written back (R237, R244). -/
def State.openCopy (s : State) (w : Who) (line : Nat) (hs : Bool) (key : Option Nat) : State × Copy1 :=
  let new : Copy1 := { line := line, part := w.part, hs := hs, key := key, bytes := [], dirty := 0 }
  match (s.die w.die).copy1 w.part line with
  | none => (s, new)
  | some c => if c.key = key then (s, c) else (s.writeBack w line, new)

end Sys2Proof.Machine
end

