-- ==== Sys2Proof/Machine/Ops.lean ====
section
/-! DEFINITION. The shared operations of issuing a word: the issuing split, the program counter and loop levels (R84, R85),
taking a cause (R338, R339, R343, R377) and failing a launch (R370), and returning from a handler (R341, R346). -/

namespace Sys2Proof.Machine

open Sys2Proof

/-- The outcomes of a step. -/
abbrev Out := Host.Outcome State Fault Refusal

/-! ### The program counter and the loop levels -/

/-- The loop-end test of R84, from a level downward: the levels and the program counter after a word that ends at `pc`. -/
def loopEnd : Nat → List Loop → VA → List Loop × VA
  | 0, ls, pc => (ls, pc)
  | j + 1, ls, pc =>
    let e := ls.getD j Loop.off
    if e.count != 0 && e.stop == pc then
      if 1 < e.count.toNat then (ls.set j { e with count := e.count - 1 }, e.start)
      else loopEnd j (ls.set j { e with count := 0 }) pc
    else loopEnd j ls pc

/-- The loop-buffer words that outlast a change of the levels: none once no level is active (R281). -/
def keepBuf (ls : List Loop) (buf : List (Nat × Word)) : List (Nat × Word) :=
  if (ls.getD 0 Loop.off).count == 0 then [] else buf

/-- A split that has gone on to a word. -/
def Split.goTo (p : Split) (pc : VA) : Split := { p with pc := pc, wait := .none, cur := [] }

/-- A warp whose split has finished a word with no taken transfer, n bytes long (R84). -/
def Warp.advanceBy (x : Warp) (b : Bool) (n : Nat) : Warp :=
  match x.split b with
  | none => x
  | some p =>
    let r := loopEnd 3 x.loops (p.pc + BitVec.ofNat 57 n)
    { x with loops := r.1, loopBuf := keepBuf r.1 x.loopBuf }.setSplit b (some (p.goTo r.2))

/-- A warp whose split has finished a word. -/
def Warp.advance (x : Warp) (b : Bool) : Warp := x.advanceBy b 4

/-- The levels after a transfer to a target: a level whose body leaves the target out ends with every level above it (R85). -/
def loopsAt (ls : List Loop) (target : VA) : List Loop :=
  (ls.foldl (fun (r : List Loop × Bool) e =>
    let out := r.2 || (e.count != 0 && !(e.start.toNat ≤ target.toNat && target.toNat < e.stop.toNat))
    (r.1 ++ [if out then { e with count := 0 } else e], out)) ([], false)).1

/-- A warp whose split has taken a transfer (R85). -/
def Warp.jump (x : Warp) (b : Bool) (target : VA) : Warp :=
  match x.split b with
  | none => x
  | some p =>
    let ls := loopsAt x.loops target
    { x with loops := ls, loopBuf := keepBuf ls x.loopBuf }.setSplit b (some (p.goTo target))

/-- A word's byte offset as an address (R52). -/
def wordOffset (bits n : Nat) : VA := BitVec.ofInt 57 (4 * signed bits n)

/-- The spilled splits that a handler does not take: those of the frozen state (R339). -/
def Warp.spillBase (x : Warp) : Nat := (x.frozen.map (·.spillBase)).getD 0

/-- How many splits of a warp are live (R90); a handler counts its own (DEDUCED, log entry 25). -/
def Warp.live (x : Warp) : Nat := bit x.a.isSome + bit x.b.isSome + (x.spills - x.spillBase)

/-! ### The issuing word -/

/-- A split whose eight latches are invalid (R106). -/
def Split.clearLatches (p : Split) : Split :=
  { p with l := List.replicate 4 LatchL.empty, m := List.replicate 4 LatchM.empty }

/-- The state with the issuing warp replaced. -/
def State.putWarp (s : State) (c : Cur) (x : Warp) : State := s.setWarp c.core c.slot x

/-- The state with the issuing warp changed. -/
def State.upd (s : State) (c : Cur) (f : Warp → Warp) : State :=
  match s.warp c.core c.slot with
  | some x => s.putWarp c (f x)
  | none => s

/-- The state after the issuing split has finished its word. -/
def State.retire (s : State) (c : Cur) : State := s.upd c fun x => x.advance c.b

/-- The word of an instruction, as TINFO [31:0] receives it. -/
def wordOf (i : Instr) : Word := BitVec.ofNat 32 ((encodeHead i).getD 0)

/-! ### Failing a launch (R343, R370) -/

/-- A launch, if there is one. -/
def State.launch (s : State) (l : Nat) : Option Launch := get s.launches l

/-- The physical address of a queue's page slot (R359, R390). -/
def State.pageSlot (s : State) (q : Queue) : Nat :=
  (bitsOf 40 12 ((get s.vfmap q.vf).getD 0).toNat) * 4096 + 0x40 * (q.slot + 1)

/-- The command processor that serves a queue, as an agent that accesses physical memory for it (R385). -/
def State.pageWho (s : State) (q : Queue) : Who := { die := q.die, mid := s.proxyMid q.part, part := some q.part, root := none }

/-- The state after a command processor has written bytes of a page, unless nothing stands there (R398), a target refuses the write, or
its port is down (R386, R399):
every lease on the line has ended (R239), no die holds the line any more, and a reader carries what the writing die has applied
(R264). -/
def State.postPage (s : State) (w : Who) (pa : Nat) (b : List Byte) : State :=
  let line := pa / 128
  let r := s.pass w 2 1 pa true
  if !s.populated pa then s
  else if r.2.isSome then r.1
  else
    let t := (List.range 8).foldl (fun t d => t.dropCached d line) (s.storeLine pa (indexed b) none true)
    { t with lineClocks := put t.lineClocks line (joinClocks (t.lineClock line) (t.die w.die).clock),
             dies := t.dies.map fun x => { x with copies0 := del x.copies0 line } }

/-- The state with a queue's RPTR, DONE and STATUS written to its page (R359). -/
def State.showQueue (s : State) (n : Nat) : State :=
  match get s.queues n with
  | none => s
  | some q =>
    s.postPage (s.pageWho q) (s.pageSlot q + 0x10) (toBytes 8 q.rptr ++ toBytes 8 q.done ++ toBytes 8 q.status.toNat)

/-- STATUS (Table 8 of R375). -/
def statusWord (index cause : Nat) (stopped : Bool) (code : Nat) : DWord :=
  BitVec.ofNat 64 (index % 2 ^ 32 * 2 ^ 32 + cause % 1024 * 65536 + bit stopped * 256 + code)

/-- A packet at which its queue stops (R375, R406). -/
def Pkt.halt (p : Pkt) (cause code : Nat) : Pkt := { p with halted := p.halted <|> some (cause, code) }

/-- A queue whose packet of a number goes no further (R375, R406). -/
def Queue.halt (q : Queue) (num cause code : Nat) : Queue :=
  { q with pkts := q.pkts.map fun p => if p.num = num then p.halt cause code else p }

/-- The state with a queue stopped at a packet; one that is stopped already keeps its STATUS (R375; DEDUCED, log entry 64). -/
def State.stopQueue (s : State) (n index cause code : Nat) : State :=
  match get s.queues n with
  | none => s
  | some q =>
    let q := q.halt index cause code
    if q.stopped then { s with queues := put s.queues n q }
    else { s with queues := put s.queues n { q with stopped := true, status := statusWord index cause true code } }.showQueue n

/-- The launches that a packet runs, itself or inside it. -/
def Pkt.launches (p : Pkt) : List Nat := p.launch.toList ++ p.inner.filterMap (·.launch)

/-- Whether a core holds slots of a launch. -/
def State.holdsSlots (s : State) (l : Nat) : Bool := s.cores.any fun k => k.2.slots.any fun t => t.2.launch == l

/-- Whether the packet of a launch that has failed is still in hand, so that its queue stops with it (R370). -/
def State.stopsFor (s : State) (l : Nat) (e : Launch) : Bool :=
  e.st == .failed && (get s.queues e.queue).any fun q => q.pkts.any fun p => p.num == e.pkt && !p.discarded && p.launches.contains l

/-- The state in which a failed launch, once its slots are returned, has stopped its queue with code 4, unless its packet has been
discarded (R370). -/
def State.failedStop (s : State) (l : Nat) : State :=
  match s.launch l with
  | none => s
  | some e => if s.stopsFor l e && !s.holdsSlots l then s.stopQueue e.queue e.pkt e.cause 4 else s

/-- Whether a launch has failed and its queue is still to stop with it, since it holds slots (R370). -/
def State.failing (s : State) (l : Nat) : Bool := (s.launch l).any fun e => s.stopsFor l e && s.holdsSlots l

/-- Whether an engine operation is final. -/
def EngSt.final : EngSt → Bool
  | .gone _ => true
  | _ => false

/-- A future entry that nothing has used yet. -/
def Future.unused : Future :=
  { gen := 0, st := .free, launch := 0, place := 0, value := 0, cause := 0, info := 0, page := 0, orphan := false,
    stamped := [] }

/-- A core's deque for a tenant: the resident one, or the one parked in the tenant's record area (R178). -/
def Core.dequeOf (k : Core) (t : Nat) : List Closure :=
  if k.tenant = t then k.deque else ((get k.parkedAreas t).map (·.1)).getD []

/-- A core's future table for a tenant (R178). -/
def Core.tableOf (k : Core) (t : Nat) : List (Nat × Future) :=
  if k.tenant = t then k.futures else ((get k.parkedAreas t).map (·.2)).getD []

/-- A core with a tenant's deque replaced. -/
def Core.setDeque (k : Core) (t : Nat) (l : List Closure) : Core :=
  if k.tenant = t then { k with deque := l } else { k with parkedAreas := put k.parkedAreas t (l, k.tableOf t) }

/-- A core with a tenant's future table replaced. -/
def Core.setTable (k : Core) (t : Nat) (l : List (Nat × Future)) : Core :=
  if k.tenant = t then { k with futures := l } else { k with parkedAreas := put k.parkedAreas t (k.dequeOf t, l) }

/-- A future entry of a core for a tenant. -/
def Core.fut (k : Core) (t e : Nat) : Future := (get (k.tableOf t) e).getD Future.unused

/-- A core with a future entry replaced. -/
def Core.setFut (k : Core) (t e : Nat) (f : Future) : Core := k.setTable t (put (k.tableOf t) e f)

/-- The state with a future entry changed. -/
def State.updFut (s : State) (t c e : Nat) (f : Future → Future) : State :=
  let k := s.core c
  s.setCore c (k.setFut t e (f (k.fut t e)))

/-- A future entry cancelled with value 0 (R185). -/
def Future.cancel (f : Future) : Future := { f with st := .cancelled, value := 0 }

/-- TAIL and HEAD after the oldest allotments that are freed have been reclaimed (R216): from the oldest onward. -/
def reclaim : List Allot → Nat → Nat → List Allot × Nat × Nat
  | [], _, _ => ([], 0, 0)
  | a :: r, head, tail =>
    if a.freed then
      match r with
      | [] => ([], 0, 0)
      | n :: _ => reclaim r head (if n.skipped then 0 else n.off)
    else (a :: r, head, tail)

/-- A core with an allotment of the staging ring freed (R216). -/
def Core.freeAllot (k : Core) (id : Nat) : Core :=
  let l := k.allots.map fun a => if a.id = id then { a with freed := true } else a
  let r := reclaim l k.head k.tail
  { k with allots := r.1, head := r.2.1, tail := if r.1.isEmpty then 0 else r.2.2 }

/-- A core without the ring space of a closure that was staged ahead. -/
def Core.unstage (k : Core) (q : Closure) : Core :=
  match q.allot with
  | some a => k.freeAllot a
  | none => k

/-- A core's closures of a launch taken out of its deque, with the futures to cancel and the ring space freed (R370). -/
def Core.dropClosures (k : Core) (t l : Nat) : Core × List (Nat × Nat) :=
  let gone := (k.dequeOf t).filter fun q => q.launch == l
  let k := k.setDeque t ((k.dequeOf t).filter fun q => q.launch != l)
  (gone.foldl Core.unstage k, gone.map fun q => (q.core, q.entry))

/-- Whether a closure is that of an entry. -/
def Closure.isFor (q : Closure) (c e : Nat) : Bool := q.core == c && q.entry == e

/-- A core on which the closures under way to it that satisfy a test are cancelled: one that arrives only frees the slot reserved for
it (R185). -/
def Core.cancelFlight (k : Core) (f : Closure → Bool) : Core :=
  let mark (q : Closure) : Closure := if f q then { q with cancelled := true } else q
  { k with arrivals := k.arrivals.map fun a => (a.1, mark a.2),
           steals := k.steals.map fun e => { e with answer := e.answer.map fun o => o.map mark } }

/-- The state in which the closures under way to a thief that satisfy a test are cancelled. -/
def State.cancelFlight (s : State) (f : Closure → Bool) : State :=
  { s with cores := s.cores.map fun k => (k.1, k.2.cancelFlight f) }

/-- The closures under way to a core that are not cancelled. -/
def Core.inFlight (k : Core) : List Closure :=
  (k.arrivals.map (·.2) ++ k.steals.filterMap fun e => e.answer.bind id).filter fun q => !q.cancelled

/-- A core's tasks of a launch that have not started taken off their slots, with the futures to cancel and the ring space freed (R31,
R370). -/
def Core.dropStarts (k : Core) (l : Nat) : Core × List (Nat × Nat) :=
  let gone := (k.slots.filter fun t => t.2.launch == l).filterMap (·.2.task)
  let k := gone.foldl (fun k t => match t.allot with
    | some a => k.freeAllot a
    | none => k) k
  let slots := k.slots.map fun t =>
    if t.2.launch = l ∧ t.2.task.isSome then (t.1, { t.2 with use := .free, task := none }) else t
  ({ k with slots := slots }, gone.map fun t => (bitsOf 9 23 t.handle.toNat, bitsOf 11 12 t.handle.toNat))

/-- The state in which no task of a launch that has not started is left: each is cancelled, in a deque, under way to a thief, or
staging or runnable on a slot (R31, R370). -/
def State.dropTasks (s : State) (part l : Nat) : State :=
  let flight := s.cores.flatMap fun c => (c.2.inFlight.filter fun q => q.launch == l).map fun q => (q.core, q.entry)
  let s := s.cores.foldl (fun s c =>
    let r := (s.core c.1).dropClosures part l
    let z := r.1.dropStarts l
    (r.2 ++ z.2).foldl (fun s f => s.updFut part f.1 f.2 Future.cancel) (s.setCore c.1 z.1)) s
  flight.foldl (fun s f => s.updFut part f.1 f.2 Future.cancel) (s.cancelFlight fun q => q.launch == l)

/-- The state in which a launch's parked warps are on their slots again, stopped; a parked task has none. -/
def State.unpark (s : State) (l : Nat) : State :=
  let t := s.parked.foldl (fun t e =>
    match t.slot e.2.core e.2.slot with
    | some z =>
      if e.2.launch = l ∧ z.launch = l ∧ z.use = .parked then
        t.setSlot e.2.core e.2.slot { z with use := .busy, warp := some { e.2.warp with status := .failed } }
      else t
    | none => t) s
  { t with parked := t.parked.filter fun e => e.2.launch != l, lifted := t.lifted.filter fun e => e.launch != l }

/-- The state in which a launch has failed or is cancelled: nothing more is placed, every warp of it stops, and its tasks that have not
started are removed as FCANCEL removes them (R31, R370; DEDUCED, log entry 63). -/
def State.endLaunch (s : State) (l : Nat) (st : LaunchSt) (cause : Nat) (record : List DWord) (errAt : Option (Nat × Nat)) :
    State :=
  match s.launch l with
  | none => s
  | some e =>
    if e.st != .running then s
    else
      let e := { e with st := st, cause := cause, record := record, errAt := errAt }
      let s := ({ s with launches := put s.launches l e }).unpark l
      let s := s.dropTasks e.part l
      { s with cores := s.cores.map fun c => (c.1, { c.2 with slots := c.2.slots.map fun t => (t.1,
          if t.2.launch = l ∧ c.1 < 512 then
            { t.2 with warp := t.2.warp.map fun x => if x.status == .running then { x with status := .failed } else x }
          else t.2) }) }

/-- The state in which a launch has failed with a cause: it ends, and its queue stops with code 4 once its slots are returned
(R370; DEDUCED, log entry 63). -/
def State.failLaunch (s : State) (l cause : Nat) (record : List DWord) (errAt : Option (Nat × Nat)) : State :=
  (s.endLaunch l .failed cause record errAt).failedStop l

/-! ### Taking a cause -/

/-- TCAUSE (Table 2 of R338). -/
def tcauseOf (cause : Nat) (after preempt b : Bool) : DWord :=
  BitVec.ofNat 64 (cause + bit after * 2 ^ 11 + bit preempt * 2 ^ 12 + bit b * 2 ^ 13)

/-- The pre-emption causes (R337). -/
def isPreempt (c : Nat) : Bool := c == 0x301 || c == 0x302 || c == 0x3C1 || c == 0x3C2

/-- The address of a launch's trap entry; none where its header has TRAPOFF = 0 (R64, R343). -/
def Launch.trapEntry (e : Launch) : Option VA :=
  if e.header.trapOff = 0 then none else some (BitVec.ofInt 57 (e.kernel + e.header.trapOff))

/-- What a lane's shadow bank replaces (R340). -/
def Lane.shadow (a : Lane) : LaneShadow := { q := a.q, vhi := a.v.drop 24, p := a.p, n := a.n }

/-- A lane on its shadow bank (Table 5 of R340). -/
def Lane.banked (a : Lane) : Lane :=
  { a with q := List.replicate 16 (Cell32.of 0), v := a.v.take 24 ++ List.replicate 8 (Cell32.of 0),
           p := List.replicate 7 0, n := 0 }

/-- A lane back from its shadow bank (R341). -/
def Lane.unbank (a : Lane) (h : LaneShadow) : Lane := { a with q := h.q, v := a.v.take 24 ++ h.vhi, p := h.p, n := h.n }

/-- Trap entry (R339): the warp's state is frozen, the shadow bank starts as Table 5 of R340 gives, and one handler split
starts at the trap entry with the trapped split's mask. -/
def Warp.enter (x : Warp) (b : Bool) (cause : Nat) (entry : VA) (mask : LaneMask) : Warp :=
  { x with
    frozen := some { cause := cause, inB := b, lanes := x.lanes.map Lane.shadow, k := x.k, shi := x.s.drop 24, c := x.c, a := x.a,
                     b := x.b, loops := x.loops, loopBuf := x.loopBuf, spillBase := x.spills, frames := x.frames, away := x.away,
                     depth := x.inline.length, loaded := [], saved := false },
    lanes := x.lanes.map Lane.banked, k := List.replicate 16 (Cell64.of 0),
    s := x.s.take 24 ++ List.replicate 8 (Cell64.of 0), c := 0, a := some (Split.start entry mask), b := none,
    loops := List.replicate 3 Loop.off, loopBuf := [], asks := false }

/-- A firmware level's bank with everything 0 and the latches invalid (DESIGN CHOICE, log entry 4). -/
def LevelBank.reset : LevelBank :=
  { k := List.replicate 16 (Cell64.of 0), s := List.replicate 32 (Cell64.of 0), c := 0,
    m := List.replicate 4 LatchM.empty }

/-- A firmware core's warp with another level's bank in place (R377). -/
def Warp.setLevel (x : Warp) (f : Fw) (lvl : Nat) : Warp :=
  let m := (x.a.map (·.m)).getD []
  let banks := put f.banks f.level { k := x.k, s := x.s, c := x.c, m := m }
  let n := (get banks lvl).getD LevelBank.reset
  { x with k := n.k, s := n.s, c := n.c, a := x.a.map fun p => { p with m := n.m },
           fw := some { f with level := lvl, banks := banks } }

/-- The trap registers written (R338). -/
def Warp.setTrapRegs (x : Warp) (cause : DWord) (tpc : VA) (mask : LaneMask) (info : DWord) : Warp :=
  { x with tcause := cause, tpc := tpc.setWidth 64, tmask := mask, tinfo := info }

/-- A cause on a firmware core: level 0 at FWVEC base + 0xC000, with the previous level recorded
(R377; DEDUCED, log entry 50). -/
def Warp.enterFw (x : Warp) (f : Fw) : Warp :=
  let y := x.setLevel f 0
  { y with
    a := y.a.map fun p => { p with pc := BitVec.ofNat 57 (f.vec.toNat + 0xC000), wait := .none, buf := [], cur := [] },
    fw := y.fw.map fun g => { g with prev := some f.level } }

/-- The state after the issuing split has raised a cause at its word (R338, R339, R343, R377). -/
def State.take (s : State) (c : Cur) (t : Trap) (word : Word) : State :=
  match s.warp c.core c.slot with
  | none => s
  | some x =>
    match x.split c.b with
    | none => s
    | some p =>
      let tpc := if t.after then p.pc + 4 else p.pc
      let mask := t.mask.getD p.mask
      let info : DWord := BitVec.ofNat 64 ((if t.word then word.toNat else 0) + t.info % 2 ^ 32 * 2 ^ 32)
      let tc := tcauseOf t.cause t.after false c.b
      match x.fw with
      | some f => s.putWarp c ((x.enterFw f).setTrapRegs tc tpc mask info)
      | none =>
        match (s.launch x.launch).bind Launch.trapEntry, x.frozen with
        | some e, none => s.putWarp c ((x.enter c.b t.cause e p.mask).setTrapRegs tc tpc mask info)
        | _, z =>
          (s.putWarp c { x with status := .failed }).failLaunch x.launch t.cause
            [tc, tpc.setWidth 64, mask, info, if z.isSome then x.tcause else 0] (some (c.core, c.slot))

/-- The state in which the issuing word has cleared its split's latches, if it is of the switching class (R106). -/
def State.clearFor (s : State) (c : Cur) (i : Instr) : State :=
  if isSwitching i then
    s.upd c fun x => match x.split c.b with
      | some p => x.setSplit c.b (some p.clearLatches)
      | none => x
  else s

/-- 0x381 for a mismatch that both issues of a word find (R114): before the causes of the register state but for those of a poisoned
value, which come first (R215); a mismatch of the result, after every other cause of the word (DEDUCED, log entry 76). -/
def Misfit.trap (m : Misfit) (r : Except Trap State) : Trap :=
  match r with
  | .ok _ => Trap.lanes 0x381 m.code m.lanes
  | .error t =>
    if m.code = 63 || t.cause == 0x382 || t.cause == 0x383 || t.cause == 0x144 then t else Trap.lanes 0x381 m.code m.lanes

/-- Executing a word: its body runs on the issuing warp and split, and a cause it raises is taken (R339). -/
def issue (i : Instr) (s : State) (body : State → Cur → Warp → Split → Except Trap State) : Out :=
  let s := s.clearFor s.cur i
  match s.warp s.cur.core s.cur.slot with
  | none => .fault .noWarp
  | some x =>
    match x.split s.cur.b with
    | none => .fault .noWarp
    | some p =>
      match x.misfit, body s s.cur x p with
      | none, .ok t => .next t
      | none, .error t => .next (s.take s.cur t (wordOf i))
      | some m, r => .next ((s.putWarp s.cur { x with misfit := none }).take s.cur (m.trap r) (wordOf i))

/-- Whether the c guard of a warp is true for a uniform word of format U3, U4 or UI (R37). -/
def Warp.wordGuard (x : Warp) (i : Instr) : Bool := x.cguard (field 3 20 (wordOf i).toNat) (flag 19 (wordOf i).toNat)

/-- What a word pushes as the state of a unit of the issuing core: a firmware core lacks it, and reads a free value in the fields of
the layout (DEDUCED, log entry 32). -/
def State.snapshot (s : State) (core op : Nat) (fields v : DWord) : DWord :=
  if isFw core then Config.fwSnapshot op s.free &&& fields else v

/-- A uniform word of a unit that a firmware core lacks: with a true guard the spec gives it no effect there, except that level 2
refuses engine words and every access but those R380 lists with 0x141. -/
def onCompute (i : Instr) (s : State) (op : Nat) (body : State → Cur → Warp → Split → Except Trap State) : Out :=
  if isFw s.cur.core then
    match s.warp s.cur.core s.cur.slot with
    | none => .fault .noWarp
    | some x =>
      if !x.wordGuard i then issue i s body
      else if (x.fw.map (·.level)) = some 2 then issue i s fun _ _ _ _ => .error (Trap.of 0x141 0)
      else .refused (.firmwareUnit op)
  else issue i s body

/-! ### Returning from a handler (R341, R346) -/

/-- A split as it resumes: a word that stood blocked repeats (R28, R341); an arrival at a barrier stays counted, so the split
stays blocked on the phase it arrived in (R89). -/
def Split.resume (p : Split) : Split :=
  match p.wait with
  | .phase _ _ => p
  | .redx _ _ => p
  | _ => { p with wait := .none }

/-- Where a split of a frozen state stands. -/
def Frozen.at_ (z : Frozen) (b : Bool) : Option VA := (if b then z.b else z.a).map (·.pc)

/-- A warp back from its handler on its frozen state, the trapped split at TPC (R341). -/
def Warp.thaw (x : Warp) (z : Frozen) : Warp :=
  let back (p : Split) : Split :=
    let t : VA := x.tpc.setWidth 57 &&& ~~~3
    if t = p.pc then p.resume else { p with pc := t, wait := .none, buf := [], cur := [] }
  { x with
    frozen := none,
    debug := match x.debug with
      | .stepping b i => .stepping b (i && b == z.inB && decide (x.tpc.setWidth 57 &&& ~~~3 ≠ (z.at_ b).getD 0))
      | d => d,
    lanes := mapPlace (fun l a => match z.lanes[l]? with
      | some h => a.unbank h
      | none => a) 0 x.lanes,
    k := z.k, s := x.s.take 24 ++ z.shi, c := z.c,
    a := if z.inB then z.a.map Split.resume else z.a.map back, b := if z.inB then z.b.map back else z.b.map Split.resume,
    loops := z.loops, loopBuf := z.loopBuf, frames := z.frames, away := z.away, spills := z.spillBase, ops := x.ops ++ x.withdrawn, withdrawn := [] }

end Sys2Proof.Machine
end

