-- ==== Sys2Proof/Machine/LaneOps.lean ====
section
/-! DEFINITION. The shapes that lane-set words share: element-wise operations with a register result (R98, R99, R104). -/

namespace Sys2Proof.Machine

open Sys2Proof

/-- Sources of a lane-set word, read in the lanes of a mask. -/
def laneSources (m : LaneMask) (codes : List Nat) : List Source :=
  codes.map fun c => { uni := false, code := c, lanes := m }

/-- The lanes with an enabled element of n bytes (R98). -/
def Warp.enabledLanes (x : Warp) (p : Split) (g : BitVec 3) (neg : Bool) (n : Nat) : LaneMask :=
  maskOf x.width fun l => x.enabled p g neg n l != 0

/-- A warp whose split has written a lane result and finished its word. -/
def Warp.laneResult (x : Warp) (b : Bool) (p : Split) (nw : Bool) (g : BitVec 3) (neg : Bool) (d n : Nat)
    (res : Nat → Word) : Warp :=
  (x.writeLanes b p nw d (x.enabled p g neg n) res).advance b

/-- A lane-set word with a register result: its sources are read in the lanes with enabled elements, and each lane's result
is written back by R99. -/
def laneWord (i : Instr) (s : State) (nw : Bool) (g : BitVec 3) (neg : Bool) (d n : Nat) (codes : List Nat)
    (res : Warp → Split → Nat → Word) : Out :=
  issue i s fun s c x p =>
    match x.readCause p (laneSources (x.enabledLanes p g neg n) codes) with
    | some t => .error t
    | none => .ok (s.putWarp c (x.laneResult c.b p nw g neg d n (res x p)))

/-- An operation on one 32-bit element or on two 16-bit elements (R115): the width comes first. -/
def onElems (h2 : Bool) (f : Nat → Nat → Nat → Nat → Nat) (a b c : Word) : Word :=
  if h2 then
    BitVec.ofNat 32 (f 16 (a.toNat % 65536) (b.toNat % 65536) (c.toNat % 65536) % 65536 +
      f 16 (a.toNat / 65536) (b.toNat / 65536) (c.toNat / 65536) % 65536 * 65536)
  else BitVec.ofNat 32 (f 32 a.toNat b.toNat c.toNat)

/-- Bytes of an element. -/
def elemBytes (h2 : Bool) : Nat := if h2 then 2 else 4

/-- The constants of an integer opcode (R41). -/
def intConst (h2 : Bool) : Const := .int (if h2 then 16 else 32)

/-- An L3 integer word with two sources. -/
def intBin (i : Instr) (f : Fmt3) (s : State) (op : Nat → Nat → Nat → Nat) : Out :=
  laneWord i s f.nw f.g f.neg f.d.toNat (elemBytes f.x) [f.a.toNat, f.b.toNat] fun x p l =>
    onElems f.x (fun w a b _ => op w a b) (x.val p (intConst f.x) f.a.toNat l) (x.val p (intConst f.x) f.b.toNat l) 0

/-- An L3 integer word with one source. -/
def intUn (i : Instr) (f : Fmt3) (s : State) (op : Nat → Nat → Nat) : Out :=
  laneWord i s f.nw f.g f.neg f.d.toNat (elemBytes f.x) [f.a.toNat] fun x p l =>
    onElems f.x (fun w a _ _ => op w a) (x.val p (intConst f.x) f.a.toNat l) 0 0

/-- An L4 integer word. -/
def intTri (i : Instr) (f : Fmt4) (s : State) (op : Nat → Nat → Nat → Nat → Nat) : Out :=
  laneWord i s f.nw f.g f.neg 0 (elemBytes f.x) [f.a.toNat, f.b.toNat, f.c.toNat] fun x p l =>
    onElems f.x op (x.val p (intConst f.x) f.a.toNat l) (x.val p (intConst f.x) f.b.toNat l)
      (x.val p (intConst f.x) f.c.toNat l)

/-- An LI word: a 32-bit source and the sign-extended immediate. -/
def intImm (i : Instr) (f : FmtI) (s : State) (op : Word → Word → Word) : Out :=
  laneWord i s f.nw f.g f.neg 0 4 [f.a.toNat] fun x p l => op (x.val p (.int 32) f.a.toNat l) (f.imm.signExtend 32)

/-! ### Uniform-set words -/

/-- Sources of a uniform-set word: read only where its guard is true (R35); a latch among them must be valid whatever the
guard (R106). -/
def uniSources (g : Bool) (codes : List Nat) : List Source :=
  codes.map fun c => { uni := true, code := c, lanes := if g then BitVec.allOnes 64 else 0 }

/-- A warp whose split has written a uniform result and finished its word. -/
def Warp.uniResult (x : Warp) (b : Bool) (p : Split) (nw : Bool) (d : Nat) (g : Bool) (res : DWord) : Warp :=
  (x.writeUni b p nw d g res).advance b

/-- A uniform-set word with a register result, written back by R100. -/
def uniWord (i : Instr) (s : State) (nw : Bool) (gd : BitVec 3) (neg : Bool) (d : Nat) (codes : List Nat)
    (res : State → Cur → Warp → Split → DWord) : Out :=
  issue i s fun s c x p =>
    let g := x.cguard gd neg
    match x.readCause p (uniSources g codes) with
    | some t => .error t
    | none => .ok (s.putWarp c (x.uniResult c.b p nw d g (if g then res s c x p else 0)))

end Sys2Proof.Machine
end

