-- ==== Sys2Proof/Machine/Blocked.lean ====
section
/-! DEFINITION. Blocked words (R28): a split that waits at a word it has issued takes no issue slot until what it waits for has
come about. -/

namespace Sys2Proof.Machine

open Sys2Proof

/-! ### What a blocked word waits for -/

/-- Whether an entry is the one that group number g names from a slot of a launch (R87). -/
def Group.isFor (e : Group) (launch slot g : Nat) : Bool := e.launch == launch && e.image == g && e.members.getLsbD slot

/-- The entry that group number g names from a slot of a launch; none where the slot is no member (R87). -/
def Core.group (k : Core) (launch slot g : Nat) : Option Group := k.groups.find? fun e => e.isFor launch slot g

/-- What a phase left for a slot. -/
def Group.result (e : Group) (w phase : Nat) : Option (Option Word) :=
  (e.results.find? fun r => r.1 == w && r.2.1 == phase).map (·.2.2)

/-- The counter of a path (R220): the operations of the path that have not completed, in issue order. -/
def Warp.counter (x : Warp) (path : Nat) : Nat := (x.ops.filter fun o => o.path == path).length

/-- Whether an operation is an access of the warp (R256); engine commands, MRESQ and BANKSET are not. -/
def Op.access (o : Op) : Bool :=
  match o.kind with
  | .bankset _ _ => false
  | .engine _ => false
  | .mresq _ => false
  | _ => true

/-- Whether an operation is a store or an atomic, which a release waits for (R91, R261). -/
def Op.isWrite (o : Op) : Bool :=
  match o.kind with
  | .store => true
  | .atom _ _ => true
  | .red _ => true
  | _ => false

/-- Whether an operation has been performed (R256): its value may still have to return. -/
def Op.performed (o : Op) : Bool := o.done || (o.access && o.accs.all fun a => a.got.isSome)

/-- Whether a split of a warp is held at a FENCE before which an operation of a number was not issued, so that it is not performed
(R267). -/
def Warp.fenced (x : Warp) (id : Nat) : Bool :=
  let from_ (p : Split) : Bool := match p.wait with
    | .fence n => decide (n ≤ id)
    | _ => false
  x.a.any from_ || x.b.any from_

/-- Whether every operation in a list is complete: none stands in the array's queue. -/
def Core.allDone (k : Core) (ids : List Nat) : Bool := k.matrix.queue.all fun o => !ids.contains o.id

/-- Whether a warp's closed batch of a number is complete. -/
def Core.batchDone (k : Core) (x : Warp) (n : Nat) : Bool := k.allDone ((get x.closed n).getD [])

/-- Whether what MWAIT waits for is complete: a batch, or every batch for 17 (R333). -/
def Core.mwaitDone (k : Core) (x : Warp) (n : Nat) : Bool := if n = 17 then x.closed.all fun e => k.allDone e.2 else k.batchDone x n

/-- Whether a warp is in the handler that serves the array's stall (R322). -/
def Core.serving (k : Core) (w : Nat) (x : Warp) : Bool :=
  k.matrix.stall.stalled && k.matrix.stall.owner == w &&
    match x.frozen with
    | some z => z.cause == 0x243
    | none => false

/-- Whether a split stands at BAR g. -/
def Split.atBar (p : Split) (g : Nat) : Bool := p.wait == .bar g

/-- Whether a warp has a spilled split of its present level: a handler does not take those below its base (R339). -/
def Warp.spilled (x : Warp) : Bool := decide (x.spillBase < x.spills)

/-- Whether a phase of a group has completed, as seen from a slot. -/
def Core.phasePast (k : Core) (launch w g ph : Nat) : Bool :=
  match k.group launch w g with
  | some e => decide (ph < e.phase)
  | none => true

/-- Whether a split of a warp is not blocked: what its word waits for has come about (R28). JOIN, the phase of a BAR, WAITV and the
rendezvous latch are left by rows of their own. -/
def Core.goes (k : Core) (w : Nat) (x : Warp) (b : Bool) (p : Split) : Bool :=
  match p.wait with
  | .none => true
  | .again => true
  | .hold _ _ => true
  | .fence _ => true
  | .lines _ _ _ => true
  | .bar g => !x.spilled && ((x.split (!b)).map (·.atBar g)).getD true
  | .barw g => k.phasePast x.launch w g ((get x.armed g).getD 0)
  | .redx g ph => k.phasePast x.launch w g ph
  | .waitc path t => decide (x.counter path ≤ t)
  | .mwait n => k.mwaitDone x n || k.serving w x
  | .join _ _ _ => false
  | .phase _ _ => false
  | .waitv _ _ => false
  | .gang _ _ _ _ _ _ => false

/-- Whether a split is held at a word that looks again, at every turn of the split, whether what it waits for has come about: it takes
no issue slot meanwhile (R26, R28). -/
def Split.isHeld (p : Split) : Bool :=
  match p.wait with
  | .hold _ _ => true
  | .fence _ => true
  | .lines _ _ _ => true
  | _ => false

/-- A split blocked at its word, which it keeps as fetched (R28, R278). -/
def Split.block (p : Split) (z : Wait) (w : Word) : Split := { p with wait := z, cur := [(p.pc, w)] }

/-- Whether a split has issued the word it stands at, so that the word is executed as fetched whatever is published (R278). -/
def Split.issued (p : Split) : Bool := p.wait != .none

/-- Whether the word that a split of a warp has come to issue is done: it holds none (R95). -/
def Warp.stepDone (x : Warp) (b : Bool) : Bool := ((x.split b).map fun p => p.cur.isEmpty).getD true

/-- A warp after its splits have lost fetched words: a stepped word that must be fetched again is still to be issued (R95). -/
def Warp.restep (x y : Warp) : Warp :=
  match y.debug with
  | .stepping b true => if !x.stepDone b && y.stepDone b then { y with debug := .stepping b false } else y
  | _ => y

/-- The state in which the issuing split has come to issue an instruction, whose words it keeps (R278, R95). -/
def State.keepWords (s : State) (c : Cur) (l : List (VA × Word)) : State :=
  s.upd c fun x =>
    { x.setSplit c.b ((x.split c.b).map fun p => { p with cur := l }) with
      debug := match x.debug with
        | .stepping b i => .stepping b (i || (b == c.b && x.frozen.isNone))
        | d => d }

/-- The state in which the issuing split is blocked at its word. -/
def State.blockAt (s : State) (c : Cur) (x : Warp) (p : Split) (i : Instr) (z : Wait) : State :=
  s.putWarp c (x.setSplit c.b (some (p.block z (wordOf i))))

end Sys2Proof.Machine
end

