-- ==== Sys2Proof/Machine/Perform.lean ====
section
/-! DEFINITION. Performing one access at its place (R238 to R247, R254, R256, R257, R264): reads, writes and
read-modify-writes, each answering nothing while it must still wait. -/

namespace Sys2Proof.Machine

open Sys2Proof

/-- The die of a line's home (R230). -/
def State.homeDie (s : State) (w : Who) (pa : Nat) : Nat := s.home w pa / 16

/-- n bytes of memory behind the caches: decoded in the aperture, else as stored (R174, R237). -/
def State.behind (s : State) (part : Option Nat) (pa n : Nat) (key : Option Nat) : List Byte :=
  if inAperture pa then (List.range n).map fun i => s.decodedByte part (pa + i) else s.plain pa n key

/-- The bytes a sector owned by the host held when ownership was granted (R245). -/
def State.sectorBytes (s : State) (pa n : Nat) : Option (List Byte) :=
  match (get s.sectors (pa / 128)).bind fun l => l.getD (pa % 128 / 64) none with
  | some b => some ((b.drop (pa % 64)).take n)
  | none => none

/-- A byte that a fill of a copy takes from its line's memory; of a sector that the host owns, as it was at the grant (R244, R245). -/
def State.fillByte (s : State) (c : Copy1) (off : Nat) : Byte :=
  let pa := 128 * c.line + off
  ((if c.hs then s.sectorBytes pa 1 else none).getD (s.behind c.part pa 1 c.key)).getD 0 0

/-- A copy with the bytes of a range that it does not hold filled from memory (R244). -/
def State.fillCopy (s : State) (c : Copy1) (off n : Nat) : Copy1 :=
  { c with bytes := (List.range n).foldl (fun l i =>
      match get l (off + i) with
      | some _ => l
      | none => l ++ [(off + i, s.fillByte c (off + i))]) c.bytes }

/-- Whether a copy holds every byte of a range. -/
def Copy1.has (c : Copy1) (off n : Nat) : Bool := (List.range n).all fun i => (get c.bytes (off + i)).isSome

/-- The bytes at a line's home in L2, which then holds the line: a decoded line stays as it was decoded until it is dropped (R175). -/
def State.atHome (s : State) (w : Who) (pa n : Nat) (key : Option Nat) : State × List Byte :=
  if inAperture pa then
    let h := s.homeDie w pa
    match get (s.die h).decoded (decodedKey w.part (pa / 128)) with
    | some b => (s, (b.drop (pa % 128)).take n)
    | none =>
      let b := s.behind w.part (pa / 128 * 128) 128 key
      let x := s.die h
      (s.setDie h { x with decoded := put x.decoded (decodedKey w.part (pa / 128)) b }, (b.drop (pa % 128)).take n)
  else
    let s := s.fillL2 (pa / 128) key
    (s, s.plain pa n key)

/-- A die's copy of a remote line filled under a key index (R237, R243). -/
def Die.copy0 (x : Die) (line : Nat) (key : Option Nat) : Option (List Byte) :=
  (get x.copies0 line).bind fun e => if e.1 = key then some e.2 else none

/-- A read of TYPE 0 (R243, R264): from the die's copy of a remote line, or at the home once the die has applied what the
read carries; a remote line is then held. -/
def State.read0 (s : State) (w : Who) (pa n : Nat) (key : Option Nat) : Option (State × List Byte) :=
  let line := pa / 128
  match (s.die w.die).copy0 line key with
  | some b => some (s, (b.drop (pa % 128)).take n)
  | none =>
    if !s.readyFor w.die line then none
    else if s.homeDie w pa = w.die || inAperture pa then some (s.atHome w pa n key)
    else
      let r := s.atHome w (128 * line) 128 key
      let x := r.1.die w.die
      some (r.1.setDie w.die { x with copies0 := put x.copies0 line (key, r.2) }, (r.2.drop (pa % 128)).take n)

/-- A read of TYPE 1 in the die's copy (R244). -/
def State.read1 (s : State) (w : Who) (pa n : Nat) (hs : Bool) (key : Option Nat) : State × List Byte :=
  let r := s.openCopy w (pa / 128) hs key
  let c := r.1.fillCopy r.2 (pa % 128) n
  (r.1.setDie w.die ((r.1.die w.die).setCopy1 c), (List.range n).map fun i => (get c.bytes (pa % 128 + i)).getD 0)

/-- A read performed at its place by its memory type (R238); of TYPE 0 or 2 in a sector that the host owns it returns what the sector
held at the grant (R245). -/
def State.readAt (s : State) (w : Who) (type : Nat) (hs : Bool) (pa n : Nat) (key : Option Nat) : Option (State × List Byte) :=
  if type = 1 then some (s.read1 w pa n hs key)
  else match if hs then s.sectorBytes pa n else none with
    | some b => some (s, b)
    | none =>
      if type = 0 then s.read0 w pa n key
      else if s.readyFor w.die (pa / 128) then some (s, s.behind w.part pa n key) else none

/-- Whether a read of a line's bytes goes beyond the slices of its die, to the line's home or memory: not where the die's copy under
the same key index gives them (R243, R244). -/
def State.beyond (s : State) (w : Who) (type pa n : Nat) (key : Option Nat) : Bool :=
  if type = 1 then !((s.die w.die).copy1 w.part (pa / 128)).any fun c => c.key == key && c.has (pa % 128) n
  else !(type == 0 && ((s.die w.die).copy0 (pa / 128) key).isSome)

/-- What a read returns: the state after it, the bytes, and the cause that poisons them. -/
abbrev Got := State × List Byte × Option (BitVec 10)

/-- A read that has passed translation (R254, R257): refused by a target, or of a line whose data is uncorrectable, it is poisoned
and leaves no copy; nothing while it must wait. -/
def State.load (s : State) (w : Who) (type : Nat) (hs : Bool) (pa n : Nat) (key : Option Nat) : Option Got :=
  let far := s.beyond w type pa n key
  let r := s.pass w type 0 pa far
  match r.2 with
  | some c => some (r.1, List.replicate n 0, some c)
  | none =>
    if far && s.badLines.contains (pa / 128) then some (s, List.replicate n 0, some 0x383)
    else (s.readAt w type hs pa n key).map fun g => (g.1, g.2, none)

/-- The cluster of a master ID on its die; 16 where it has none (R385). -/
def midCluster (mid : Nat) : Nat :=
  let u := mid % 256
  if u < 0x40 then u / 4 else if u < 0x80 then (u - 0x40) / 4 else if u < 0x90 then u - 0x80 else 16

/-- Whether a lease of an L0 or an instruction cache, or another cluster's L1 copy, on a die still holds a write back (R239, R242,
R281). -/
def State.heldBack (s : State) (d cl line : Nat) : Bool :=
  s.cores.any (fun c => coreDie c.1 == d && (c.2.leases ++ c.2.ileases).any fun l => l.1 == line) ||
    (s.die d).l1.any fun e => e.2 == line && e.1 != cl

/-- Whether a write of a line may be performed now (R239, R242, R243, R245, R264): no lease or L1 copy on the writing die, nor, for a
write performed at the home, on the home die, holds it back. -/
def State.writable (s : State) (w : Who) (type : Nat) (hs : Bool) (pa : Nat) : Bool :=
  let h := s.homeDie w pa
  let line := pa / 128
  !(hs && (s.sectorBytes pa 1).isSome) && !s.heldBack w.die (midCluster w.mid) line &&
    (type == 1 || (s.caughtUp h w.die && (h == w.die || !s.heldBack h 16 line)))

/-- Bytes written at their place by the memory type, the write being allowed now. -/
def State.writeAt (s : State) (w : Who) (type : Nat) (hs : Bool) (pa : Nat) (l : List (Nat × Byte)) (key : Option Nat) : State :=
  if type = 1 then
    let r := s.openCopy w (pa / 128) hs key
    let off := pa % 128
    let c := { r.2 with
               bytes := l.foldl (fun b e => put b (off + e.1) e.2) r.2.bytes,
               dirty := l.foldl (fun m e => m ||| BitVec.ofNat 128 (2 ^ (off + e.1))) r.2.dirty }
    r.1.setDie w.die ((r.1.die w.die).setCopy1 c)
  else (s.storeLine pa l key (type == 0)).announce w.die (s.homeDie w pa) (pa / 128)

/-- What the targets answer a store: a TYPE 1 store ends in the die's copy, which needs no fill (R244, R254). -/
def State.passStore (s : State) (w : Who) (type pa : Nat) : State × Option (BitVec 10) := s.pass w type 1 pa (type != 1)

/-- A store that has passed translation: a refused one writes nothing and completes (R254); nothing while it must wait. -/
def State.store (s : State) (w : Who) (type : Nat) (hs : Bool) (pa : Nat) (l : List (Nat × Byte))
    (key : Option Nat) : Option State :=
  let r := s.passStore w type pa
  if r.2.isSome then some r.1
  else if s.writable w type hs pa then some (s.writeAt w type hs pa l key) else none

/-- A read-modify-write of an n-byte word at the place of Table 7 (R247): the state after it, the old value, and the cause
that poisons it; nothing while it must wait. -/
def State.rmw (s : State) (w : Who) (type : Nat) (hs : Bool) (pa n : Nat) (key : Option Nat) (f : Nat → Nat) :
    Option (State × Nat × Option (BitVec 10)) :=
  let far := type != 1 || s.beyond w 1 pa n key
  let r := s.pass w type 1 pa far
  if r.2.isSome then some (r.1, 0, r.2)
  else if !s.writable w type hs pa then none
  else if far && s.badLines.contains (pa / 128) then some (s, 0, some 0x383)
  else
    let g := if type = 1 then some (s.read1 w pa n hs key)
             else if s.readyFor w.die (pa / 128) then some (s, s.plain pa n key) else none
    g.map fun g =>
      let old := ofBytes g.2
      (g.1.writeAt w type hs pa (indexed (toBytes n (f old))) key, old, none)

end Sys2Proof.Machine
end

