-- ==== Sys2Proof/Machine/Fetch.lean ====
section
/-! DEFINITION. Fetching a word (R277 to R281, R286) and which splits may issue (R22, R26, R28, R95, R139). -/

namespace Sys2Proof.Machine

open Sys2Proof

/-- The agent that a core's warp is for memory (R385). -/
def State.whoOf (s : State) (c : Nat) (x : Warp) : Who :=
  if isFw c then { die := coreDie c, mid := coreDie c * 256 + 0xA0 + (c - 512) % 4, part := none, root := none }
  else { die := coreDie c, mid := coreDie c * 256 + c % 64, part := (s.launch x.launch).map (·.part),
         root := some (((s.launch x.launch).map (·.root)).getD 0) }

/-- Whether a core lies within a scope around another (R8); codes as R47. -/
def inScope (scope around c : Nat) : Bool :=
  if scope ≤ 1 then around == c
  else if scope = 2 then around < 512 && c < 512 && coreDie around == coreDie c && coreCluster around == coreCluster c
  else if scope = 3 then coreDie around == coreDie c
  else true

/-- A cause of fetching: no word in TINFO [31:0] (R286). -/
def fetchTrap (cause info : Nat) : Trap := { cause := cause, mask := none, info := info, after := false, word := false }

/-- The core number that ORIGIN shows (R283). -/
def originOf (c : Nat) : Nat := if isFw c then 64 * coreDie c else c

/-- How many lines the firmware image takes (R400); of that of `State.reset`, which nothing gives, a free number (log entry 3). -/
def State.imageLength (s : State) : Nat :=
  match s.firmware with
  | some f => (f.2.length + 127) / 128
  | none => Config.imageLines

/-- Whether a line is of the firmware image as the boot ROM loaded it, and has not been written since: it is then as if published at .sys,
which no rule does for it (R400, R401; DESIGN CHOICE, log entry 3). -/
def State.imageLine (s : State) (line : Nat) : Bool :=
  decide (s.image / 128 ≤ line) && decide (line < s.image / 128 + s.imageLength) && (get s.writes line).isNone

/-- The publish state of a line at its home slice (R279, R280); none for UNPUBLISHED. -/
def State.pubOf (s : State) (w : Who) (line : Nat) : Option Pub :=
  (get s.pubs (s.pubKey w line)).or (if s.imageLine line then some .clean else none)

/-- The cause of fetching from a page, in the order of R277. -/
def State.fetchCause (s : State) (c : Nat) (w : Who) (l : Leaf) : Option Trap :=
  if !s.populated l.pa then some (fetchTrap 0x103 l.level)
  else if !l.x then some (fetchTrap 0x181 0)
  else if l.type ≠ 0 then some (fetchTrap 0x185 l.type)
  else if !s.keyOk w l.pa l.key then some (fetchTrap 0x146 l.level)
  else match s.pubOf w (l.pa / 128) with
    | none => some (fetchTrap 0x183 0)
    | some .clean => none
    | some (.pub sc o) => if inScope sc o c then none else some (fetchTrap 0x184 (sc + 256 * originOf o))

/-- Whether a level-2 firmware access lies wholly in an enabled guard that grants its kind (R380): 0 read, 1 write, 2 fetch. -/
def Warp.guarded (x : Warp) (kind va n : Nat) : Bool :=
  match x.fw with
  | none => true
  | some f =>
    f.level != 2 || f.guards.any fun e =>
      e.2.en && e.2.base.toNat ≤ va && va + n ≤ e.2.base.toNat + e.2.len &&
        (if kind = 0 then e.2.r else if kind = 1 then e.2.w else e.2.x)

/-- Whether a store or atomic of a warp that is not yet performed writes a byte of a word of memory (R258, R278; DEDUCED, log entry
37). -/
def Warp.writing (x : Warp) (pa : Nat) : Bool :=
  x.ops.any fun o => o.path == 1 && o.isWrite && !o.done && o.accs.any fun a => decide (a.pa < pa + 4) && decide (pa < a.pa + a.size)

/-- What a fetch gives: it waits, a cause with the state in which it is taken, or the word. -/
inductive Fetched where
  | wait
  | cause (s : State) (t : Trap)
  | word (s : State) (v : Word)

/-- A core's list of leases with one on a line, from now on for 1,024 cycles, of n lines at most (R239). -/
def leased (l : List (Nat × Nat)) (line now n : Nat) : List (Nat × Nat) :=
  if (get l line).isSome then l else (if n ≤ l.length then l.drop 1 else l) ++ [(line, now + 1024)]

/-- The state in which a compute core's instruction cache of 512 lines holds a line (R281). -/
def State.codeLease (s : State) (c line : Nat) : State :=
  let k := s.core c
  if isFw c then s else s.setCore c { k with ileases := leased k.ileases line (s.timeOf (coreDie c)) 512 }

/-- A fetch from memory, which the core's instruction cache then holds under a lease (R281); it waits for an acquire (R278), a FENCE
(R267) or the line. -/
def State.fetchMem (s : State) (c : Nat) (x : Warp) (pc : VA) : Fetched :=
  let w := s.whoOf c x
  if (x.ops.any fun o => o.acq && !o.performed) || x.fenced s.serial then .wait
  else if !x.guarded 2 pc.toNat 4 then .cause s (fetchTrap 0x181 0)
  else
    match s.translate w (s.tlb c) pc.toNat with
    | .error e => .cause s (fetchTrap e.1 e.2)
    | .ok l =>
      match s.fetchCause c w l with
      | some t => .cause s t
      | none =>
        if x.writing l.pa then .wait
        else
        match s.load w 0 false l.pa 4 (keyOf l.pa l.key) with
        | none => .wait
        | some (t, _, some z) => .cause t (fetchTrap z.toNat 15)
        | some (t, b, none) => .word ((t.hold c w pc.toNat).codeLease c (l.pa / 128)) (BitVec.ofNat 32 (ofBytes b))

/-- The outermost loop level's body holds an address (R281). -/
def Warp.inLoop (x : Warp) (pc : VA) : Bool :=
  let e := x.loops.getD 0 Loop.off
  e.count != 0 && e.start.toNat ≤ pc.toNat && pc.toNat < e.stop.toNat

/-- A warp whose loop buffer has taken a fetched word of an active loop's body (R281). -/
def Warp.bufferLoop (x : Warp) (pc : VA) (v : Word) : Warp :=
  if x.inLoop pc then { x with loopBuf := put x.loopBuf pc.toNat v } else x

/-- The word at an address for a split: that of the instruction it has come to issue, buffered in the loop buffer or the split's
fetch buffer, or fetched (R277, R278, R281). -/
def State.fetch (s : State) (c : Cur) (pc : VA) : Fetched :=
  match s.warp c.core c.slot with
  | none => .wait
  | some x =>
    match ((x.split c.b).bind fun p => get p.cur pc).or (if x.inLoop pc then get x.loopBuf pc.toNat else none) with
    | some v => .word s v
    | none =>
      match (x.split c.b).bind fun p => get p.buf pc with
      | some v => .word (s.putWarp c (x.bufferLoop pc v)) v
      | none =>
        match s.fetchMem c.core x pc with
        | .word t v => .word (t.upd c fun x => x.bufferLoop pc v) v
        | r => r

/-- A split's fetch buffer from an address on, and no further than it runs on from there (R281). -/
def Split.keepFrom (p : Split) : Split :=
  { p with buf := p.buf.filter fun e => p.pc.toNat ≤ e.1.toNat && e.1.toNat < p.pc.toNat + 128 }

/-- The state after a split has fetched one more word ahead; a fetch that fails or waits does nothing (R277; DESIGN
CHOICE, log entry 44). -/
def State.prefetch (s : State) (c : Cur) : State :=
  match s.warp c.core c.slot with
  | none => s
  | some x =>
    match x.split c.b with
    | none => s
    | some p =>
      let q := p.keepFrom
      let pc := q.pc + BitVec.ofNat 57 (4 * q.buf.length)
      match s.fetchMem c.core x pc with
      | .word t v => if q.buf.length < 32 then t.upd c fun x => x.setSplit c.b (some { q with buf := q.buf ++ [(pc, v)] }) else s
      | _ => s

/-- A split whose fetch buffer is empty: after an acquire (R278) or an XPUB (R282). -/
def Split.unbuffer (p : Split) : Split := { p with buf := [] }

/-! ### Issue -/

/-- Whether a split may be offered an issue slot: it runs, is not blocked (R28) nor stopped (R95), and its die's time base has
passed its saved context's (R139). -/
def State.runs (s : State) (c : Cur) : Bool :=
  match s.warp c.core c.slot with
  | none => false
  | some x =>
    match x.split c.b with
    | none => false
    | some p =>
      x.status == .running && (s.die (coreDie c.core)).up &&
        (s.core c.core).goes c.slot x c.b p &&
        (match x.debug with
         | .none => true
         | .asked _ => true
         | .stepping b _ => x.frozen.isSome || b == c.b
         | .stopped _ => false) &&
        (x.noIssueBefore == 0 || decide (x.noIssueBefore ≤ s.timeOf (coreDie c.core)))

/-- Whether a split is held at its word (R26). -/
def State.heldAt (s : State) (c : Cur) : Bool := (((s.warp c.core c.slot).bind fun x => x.split c.b).map (·.isHeld)).getD false

/-- Whether a split may be offered an issue slot for a word, and not only look again at one that holds it. -/
def State.competes (s : State) (c : Cur) : Bool := s.runs c && !s.heldAt c

/-- Whether the arbitration of a core lets a split issue (R26, R92): no split that has stayed eligible since this one issued
still waits, and none that it yielded to (DEDUCED, log entry 6). -/
def State.fairTo (s : State) (c : Cur) : Bool :=
  let k := s.core c.core
  let live (z : Nat × Bool) : Bool := s.competes { core := c.core, slot := z.1, b := z.2 }
  k.fair.all (fun e => e.2 != (c.slot, c.b) || !live e.1) && k.yields.all (fun e => e.1 != (c.slot, c.b) || !live e.2)

/-- The splits of a core other than one that may be offered an issue slot. -/
def State.rivals (s : State) (c : Cur) : List (Nat × Bool) :=
  ((s.core c.core).slots.flatMap fun t => [(t.1, false), (t.1, true)]).filter fun z =>
    z != (c.slot, c.b) && s.competes { core := c.core, slot := z.1, b := z.2 }

/-- A core that has offered a split an issue slot; `used` says whether it took it (R26). One that is held takes none. -/
def State.offered (s : State) (c : Cur) (used : Bool) : State :=
  let used := used && !s.heldAt c
  let k := s.core c.core
  let me := (c.slot, c.b)
  let rest := k.fair.filter fun e => e.1 != me
  s.setCore c.core { k with
    fair := if used then rest ++ ((s.rivals c).filter fun z => !rest.contains (z, me)).map fun z => (z, me) else rest,
    yields := k.yields.filter fun e => e.2 != me }

/-- What the decode checks depend on in a warp (R43, R340, R35). -/
def Warp.env (x : Warp) : Env :=
  { width := x.width, nv := x.nv, ns := x.ns, handler := x.frozen.isSome, firmware := x.fw.isSome }

/-- What fetching the words that follow an instruction's first gives. -/
inductive FetchedMore where
  | wait
  | cause (s : State) (t : Trap)
  | words (s : State) (l : List Word)

/-- The words that follow an instruction's first, fetched in order (R36). -/
def State.fetchMore (s : State) (c : Cur) : Nat → VA → List Word → FetchedMore
  | 0, _, acc => .words s acc
  | n + 1, pc, acc =>
    match s.fetch c pc with
    | .wait => .wait
    | .cause t z => .cause t z
    | .word t v => t.fetchMore c n (pc + 4) (acc ++ [v])

end Sys2Proof.Machine
end

