-- ==== Sys2Proof/Machine/Area.lean ====
section
/-! DEFINITION. Accesses that a word makes whole, as part of itself: runs of bytes at virtual addresses, checked in full before
any byte moves (R82, R347). -/

namespace Sys2Proof.Machine

open Sys2Proof

/-- What a whole access gives: a cause with the state it arose in, it must wait, or the state after it with a result. -/
inductive Sync (α : Type) where
  | cause (s : State) (t : Trap)
  | wait
  | done (s : State) (a : α)

/-- One whole access after another. -/
def Sync.bind {α β : Type} (r : Sync α) (f : State → α → Sync β) : Sync β :=
  match r with
  | .cause s t => .cause s t
  | .wait => .wait
  | .done s a => f s a

/-- The state of a word that had no effect, with what targets noted of its refused requests (R388). -/
def State.keepLog (s t : State) : State := { s with logs := t.logs, parts := t.parts }

/-- The outcome of a word's body: a cause is taken with no other effect, a wait leaves the state as it was. -/
def Sync.out {α : Type} (r : Sync α) (s : State) (c : Cur) (i : Instr) (f : State → α → State) : Except Trap State :=
  match r with
  | .cause u t => .ok ((s.keepLog u).take c t (wordOf i))
  | .wait => .ok s
  | .done t a => .ok (f t a)

/-- The pieces of a run of bytes, each within one line: offset from its start and length; fuel counts the lines. -/
def pieces : Nat → Nat → Nat → Nat → List (Nat × Nat)
  | 0, _, _, _ => []
  | k + 1, va, off, n =>
    if n = 0 then []
    else
      let m := min n (128 - (va + off) % 128)
      (off, m) :: pieces k va (off + m) (n - m)

/-- The pieces of a run of n bytes at an address. -/
def linePieces (va n : Nat) : List (Nat × Nat) := pieces (n / 128 + 2) va 0 n

/-- The pages under the pieces of a run, or the first cause of an access to one (R255). -/
def State.pagesOf (s : State) (w : Who) (tlb : List (Nat × Nat × Nat × DWord)) (k : Kind) (va : Nat) :
    List (Nat × Nat) → Except Trap (List (Nat × Nat × Leaf))
  | [] => .ok []
  | (off, m) :: r =>
    match s.access w tlb k false ((va + off) % 2 ^ 57) 1 with
    | .error e => .error (Trap.of e.1 (memInfo e.2 k))
    | .ok l =>
      match s.pagesOf w tlb k va r with
      | .error t => .error t
      | .ok t => .ok ((off, m, l) :: t)

/-- The bytes of pieces whose pages are known, or the cause that poisons one of them (R254). -/
def State.readPieces (w : Who) : State → List Byte → List (Nat × Nat × Leaf) → Sync (List Byte)
  | s, acc, [] => .done s acc
  | s, acc, (_, m, l) :: r =>
    match s.load w l.type l.hs l.pa m (keyOf l.pa l.key) with
    | none => .wait
    | some (t, _, some z) => .cause t (Trap.of z.toNat (memInfo l.level .read))
    | some (t, b, none) => t.readPieces w (acc ++ b) r

/-- Bytes written at offsets from a run's start, in pieces whose pages are known: `data` gives those of a piece, from its start. -/
def State.patchPieces (w : Who) (data : Nat → List (Nat × Byte)) : State → List (Nat × Nat × Leaf) → Sync Unit
  | s, [] => .done s ()
  | s, (off, _, l) :: r =>
    if (data off).isEmpty then s.patchPieces w data r
    else
      match s.store w l.type l.hs l.pa (data off) (keyOf l.pa l.key) with
      | none => .wait
      | some t => t.patchPieces w data r

/-- The bytes written in pieces whose pages are known. -/
def State.writePieces (w : Who) (bytes : List Byte) : State → List (Nat × Nat × Leaf) → Sync Unit
  | s, [] => .done s ()
  | s, (off, m, l) :: r =>
    match s.store w l.type l.hs l.pa (indexed ((bytes.drop off).take m)) (keyOf l.pa l.key) with
    | none => .wait
    | some t => t.writePieces w bytes r

/-- n bytes read at a virtual address by an agent. -/
def State.readRun (s : State) (w : Who) (tlb : List (Nat × Nat × Nat × DWord)) (va n : Nat) : Sync (List Byte) :=
  match s.pagesOf w tlb .read va (linePieces va n) with
  | .error t => .cause s t
  | .ok l => s.readPieces w [] l

/-- Bytes written at a virtual address by an agent. -/
def State.writeRun (s : State) (w : Who) (tlb : List (Nat × Nat × Nat × DWord)) (va : Nat) (bytes : List Byte) : Sync Unit :=
  match s.pagesOf w tlb .write va (linePieces va bytes.length) with
  | .error t => .cause s t
  | .ok l => s.writePieces w bytes l

/-- n bytes read at a virtual address by a warp. -/
def State.readVa (s : State) (c : Cur) (x : Warp) (va n : Nat) : Sync (List Byte) :=
  s.readRun (s.whoOf c.core x) (s.tlb c.core) va n

/-- Bytes written at a virtual address by a warp, whose stamps then hold what it sent (R264). -/
def State.writeVa (s : State) (c : Cur) (x : Warp) (va : Nat) (bytes : List Byte) : Sync Unit :=
  (s.writeRun (s.whoOf c.core x) (s.tlb c.core) va bytes).bind fun t _ =>
    .done (t.upd c fun y => { y with stamped := restamp s t (coreDie c.core) y.stamped }) ()

/-- A warp whose whole access turned one state into another: its stamps hold what it sent (R264). -/
def Warp.sent (x : Warp) (s t : State) (c : Cur) : Warp := { x with stamped := restamp s t (coreDie c.core) x.stamped }

/-- Bytes written at a virtual address by a warp that its word is changing. -/
def State.writeFor (s : State) (c : Cur) (x : Warp) (va : Nat) (bytes : List Byte) : Sync Warp :=
  (s.writeRun (s.whoOf c.core x) (s.tlb c.core) va bytes).bind fun t _ => .done t (x.sent s t c)

/-! ### The split area (R80 to R82) -/

/-- The base of a warp's split area (Table 4 of R80). -/
def Warp.splitBase (x : Warp) : Nat := bitsOf 43 14 x.splitSp.toNat * 2 ^ 14

/-- How many split records the area holds (R81). -/
def Warp.spillRoom (x : Warp) : Nat := (2 ^ (14 + bitsOf 4 0 x.splitSp.toNat) - 8192) / 32

/-- The byte offset of split record i in the area (R81). -/
def spillOffset (i : Nat) : Nat := 8192 + 32 * i

/-- A split record (Table 5 of R81). -/
def splitRecord (pc : VA) (mask : LaneMask) (frame : BitVec 8) : List Byte :=
  toBytes 8 pc.toNat ++ toBytes 8 mask.toNat ++ toBytes 8 0 ++ [frame] ++ List.replicate 7 0

/-- A frame record (Table 5 of R81). -/
def frameRecord (f : Frame) : List Byte :=
  toBytes 8 f.rcvpc.toNat ++ toBytes 8 f.expect.toNat ++ toBytes 8 f.arrived.toNat ++ [f.parent, 1] ++
    List.replicate 6 0

/-- Whether a frame number is that of a frame of a warp's, on chip or in the split area. -/
def Warp.hasFrame (x : Warp) (n : Nat) : Bool := (get x.frames n).isSome || x.away.contains n

/-- The frames of an inline task's callers whose records stand in the split area that the task uses too (R196). -/
def Warp.awayBelow (x : Warp) : List Nat :=
  x.inline.flatMap fun f => if bitsOf 43 14 f.splitSp.toNat = bitsOf 43 14 x.splitSp.toNat then f.away else []

/-- Whether a frame number is in use; a handler's warp has its frozen state's as well (R339). The place of an inline task's caller's
record is not free (DESIGN CHOICE, log entry 77). -/
def Warp.frameUsed (x : Warp) (n : Nat) : Bool :=
  x.hasFrame n || x.awayBelow.contains n || match x.frozen with
    | some z => (get z.frames n).isSome || z.away.contains n
    | none => false

/-- An address that a record holds, as a word's: bits [1:0] and those above 56 are not read (R34; DESIGN CHOICE, log entry 77). -/
def recordPc (b : List Byte) : VA := BitVec.ofNat 57 (ofBytes (b.take 8)) &&& ~~~3

/-- The split that a record names, or 0x2C3 with its byte offset (R82). -/
def Warp.recordSplit (x : Warp) (i : Nat) (b : List Byte) : Except Trap Split :=
  let mask := ofBytes ((b.drop 8).take 8)
  let frame := b.getD 24 255
  if 2 ^ x.width ≤ mask || (frame != 255 && !x.hasFrame frame.toNat) then
    .error (Trap.of 0x2C3 (spillOffset i))
  else .ok { Split.start (recordPc b) (BitVec.ofNat 64 mask) with frame := frame }

/-- The frame that a record names, or 0x2C3 with its byte offset: it is marked in use, names lanes of the warp, and its parent is
in use (R82). -/
def Warp.recordFrame (x : Warp) (n : Nat) (b : List Byte) : Except Trap Frame :=
  let expect := ofBytes ((b.drop 8).take 8)
  let arrived := ofBytes ((b.drop 16).take 8)
  let parent := b.getD 24 255
  if b.getD 25 0 != 1 || 2 ^ x.width ≤ expect || 2 ^ x.width ≤ arrived || (parent != 255 && !x.hasFrame parent.toNat) then
    .error (Trap.of 0x2C3 (32 * n))
  else .ok { rcvpc := recordPc b, expect := BitVec.ofNat 64 expect, arrived := BitVec.ofNat 64 arrived, parent := parent }

/-- The bytes, at their offsets, that the core puts in place i of the area: the record of a frame on chip, a mark that a frame is
free, nothing where the frame's record stands there, and the header in place 255 (R81, R82). -/
def areaPlace (frames : List (Nat × Frame)) (away : List Nat) (spills i : Nat) : List (Nat × Byte) :=
  if i = 255 then indexed (toBytes 4 spills ++ List.replicate 28 0)
  else match get frames i with
    | some f => indexed (frameRecord f)
    | none => if away.contains i then [] else [(25, 0)]

/-- The bytes that the core puts in the line at an offset of the area. -/
def areaLine (frames : List (Nat × Frame)) (away : List Nat) (spills off : Nat) : List (Nat × Byte) :=
  (List.range 4).flatMap fun i => (areaPlace frames away spills (off / 32 + i)).map fun e => (32 * i + e.1, e.2)

/-- The state in which a warp's split area is defined (R82): every frame's record stands in it, every other is marked free, and
the header gives the number of spilled splits (DESIGN CHOICE, log entry 77). -/
def State.storeArea (s : State) (c : Cur) (x : Warp) (frames : List (Nat × Frame)) (away : List Nat) (spills : Nat) : Sync Warp :=
  let w := s.whoOf c.core x
  match s.pagesOf w (s.tlb c.core) .write x.splitBase (linePieces x.splitBase 8192) with
  | .error t => .cause s t
  | .ok l => (s.patchPieces w (areaLine frames away spills) l).bind fun t _ => .done t (x.sent s t c)

/-- A warp with a frame on chip: one whose record stands in the split area is refilled from it (R82). -/
def State.bringFrame (s : State) (c : Cur) (x : Warp) (n : Nat) : Sync Warp :=
  if !x.away.contains n then .done s x
  else
    (s.readVa c x (x.splitBase + 32 * n) 32).bind fun t b =>
      match x.recordFrame n b with
      | .error e => .cause t e
      | .ok f => .done t { x with frames := put x.frames n f, away := x.away.filter fun i => i != n }

/-- A warp with at most four frames on chip: the others are stored in the split area, in an order that the spec does not give
(R82; DESIGN CHOICE, log entry 77). Fuel bounds how many. -/
def State.trimFrames (c : Cur) : Nat → State → Warp → Sync Warp
  | 0, s, x => .done s x
  | k + 1, s, x =>
    match if x.frames.length ≤ 4 then none else x.frames[Config.frameOut (s.free + k) % x.frames.length]? with
    | none => .done s x
    | some (n, f) =>
      (s.writeFor c x (x.splitBase + 32 * n) (frameRecord f)).bind fun t y =>
        State.trimFrames c k t { y with frames := del y.frames n, away := y.away ++ [n] }

/-- The frozen frames of a handler's warp whose records stand in the split area. -/
def Warp.awayFrozen (x : Warp) : List Nat := (x.frozen.map (·.away)).getD []

/-- A warp after a word that used its split area: at most four frames stay on chip, and a refill defines the area (R82). -/
def State.settleArea (s : State) (c : Cur) (x : Warp) (refilled : Bool) : Sync Warp :=
  (State.trimFrames c x.frames.length s x).bind fun t y =>
    if refilled then t.storeArea c y y.frames (y.away ++ y.awayBelow ++ y.awayFrozen) y.spills else .done t y

/-- The state with a split pushed on the spill stack of a warp. -/
def State.pushSplit (s : State) (c : Cur) (x : Warp) (p : Split) : Sync Warp :=
  (s.writeFor c x (x.splitBase + spillOffset x.spills) (splitRecord p.pc p.mask p.frame)).bind fun t y =>
    .done t { y with spills := y.spills + 1 }

/-- The warp with an empty slot refilled from the top of its spill stack, where there is one (R79). -/
def State.refill (s : State) (c : Cur) (x : Warp) (b : Bool) : Sync Warp :=
  if (x.split b).isSome || !x.spilled then .done s x
  else
    (s.readVa c x (x.splitBase + spillOffset (x.spills - 1)) 32).bind fun t bytes =>
      match x.recordSplit (x.spills - 1) bytes with
      | .error e => .cause t e
      | .ok p => .done t ({ x with spills := x.spills - 1 }.setSplit b (some p))

end Sys2Proof.Machine
end

