-- ==== Sys2Proof/Machine/Groups.lean ====
section
/-! DEFINITION. Groups and barriers (R87 to R91): the table entry a slot is a member of, arriving, completing a phase, and
what wakes at a passed phase. -/

namespace Sys2Proof.Machine

open Sys2Proof

/-- The clock of a release by a warp: the messages that its writes sent, and what its die has applied (R261, R264). -/
def State.releaseClock (s : State) (c : Nat) (x : Warp) : List Nat := joinClocks x.stamped (s.die (coreDie c)).clock

/-- The stores and atomics of a warp not yet performed (R91). -/
def Warp.dueWrites (x : Warp) : List Nat := (x.ops.filter fun o => !o.done && o.isWrite).map (·.id)

/-- Whether one of a list of operations is not yet performed. -/
def Warp.owes (x : Warp) (ids : List Nat) : Bool := x.ops.any fun o => !o.done && ids.contains o.id

/-! ### The group table -/

/-- A core with the entry that group number g names from a slot changed. -/
def Core.mapGroup (k : Core) (launch slot g : Nat) (f : Group → Group) : Core :=
  { k with groups := k.groups.map fun e => if e.isFor launch slot g then f e else e }

/-- One slot's bit. -/
def slotBit (w : Nat) : BitVec 64 := BitVec.ofNat 64 (2 ^ w)

/-- An entry at which a slot has arrived, with the operations its arrival waits for (R89, R91). -/
def Group.arrive (e : Group) (w : Nat) (due : List Nat) : Group :=
  { e with arrived := e.arrived ||| slotBit w, due := put e.due w due }

/-- An entry that a slot has left (R89). -/
def Group.leave (e : Group) (w : Nat) : Group :=
  { e with arrived := e.arrived &&& ~~~(slotBit w), due := del e.due w, carried := e.carried.filter fun v => v.1 != w }

/-- A core whose entries a slot has left. -/
def Core.leaveGroups (k : Core) (w : Nat) : Core := { k with groups := k.groups.map (·.leave w) }

/-- A core on which a slot is no longer that of a workgroup's warp, nor a member of the workgroup's entries (R88). -/
def Core.leaveWorkgroup (k : Core) (l i w : Nat) : Core :=
  { k with groups := k.groups.map fun e =>
      if e.launch == l && e.wg == some i then { e.leave w with members := e.members &&& ~~~(slotBit w) } else e }

/-- Whether a slot holds a warp that has not ended, or is kept for one that is parked (R89). -/
def State.present (s : State) (c w : Nat) : Bool :=
  match s.slot c w with
  | some t => t.use == .parked || match t.warp with
    | some x => x.status != .ended
    | none => false
  | none => false

/-- Whether a slot's arrival counts: it has arrived, and what its arrival waits for is performed (R91). -/
def State.counted (s : State) (c w : Nat) (e : Group) : Bool :=
  e.arrived.getLsbD w &&
    match s.warp c w with
    | some x => !x.owes ((get e.due w).getD [])
    | none => true

/-- Whether a phase completes: every present member has arrived (R89). -/
def State.phaseDone (s : State) (c : Nat) (e : Group) : Bool :=
  (e.arrived != 0 || e.absent.any fun a => a.2.arrived) && e.absent.all (fun a => a.2.arrived) &&
    (List.range 64).all fun w => !(e.members.getLsbD w && s.present c w) || s.counted c w e

/-! ### Combining (R128, R129) -/

/-- The identities of a reduction function (Table 7 of R128). -/
def reduceIdentity (fn : Nat) (h2 : Bool) : Word :=
  if h2 then twoHalves ([0, 0x7FFF, 0x8000, 0xFFFF, 0, 0xFFFF, 0, 0].getD fn 0)
  else BitVec.ofNat 32 ([0, 0x7FFFFFFF, 0x80000000, 0xFFFFFFFF, 0, 0xFFFFFFFF, 0, 0, 0x80000000, 0x7FC00000,
    0x7FC00000].getD fn 0)

/-- An integer reduction function on elements of w bits (Table 7 of R128). -/
def reduceInt (fn w a b : Nat) : Nat :=
  let less := decide (signed w a ≤ signed w b)
  if fn = 0 then a + b else if fn = 1 then (if less then a else b) else if fn = 2 then (if less then b else a)
  else if fn = 3 then min a b else if fn = 4 then max a b else if fn = 5 then a &&& b else if fn = 6 then a ||| b
  else a ^^^ b

/-- Two values combined, with the flags raised (Table 7 of R128). -/
def combine (fn : Nat) (h2 : Bool) (a b : Word) : Word × Nat :=
  if fn < 8 then
    if h2 then
      (BitVec.ofNat 32 (reduceInt fn 16 (a.toNat % 65536) (b.toNat % 65536) % 65536 +
        reduceInt fn 16 (a.toNat / 65536) (b.toNat / 65536) % 65536 * 65536), 0)
    else (BitVec.ofNat 32 (reduceInt fn 32 a.toNat b.toNat), 0)
  else
    let r := if fn = 8 then F32.add .rne 0 (F32.unpack a.toNat) (F32.unpack b.toNat)
             else F32.minMax (fn == 10) a.toNat b.toNat
    (BitVec.ofNat 32 r.bits, r.flags)

/-- One level of the pairwise tree (R129). -/
def combinePairs (fn : Nat) (h2 : Bool) : List Word → List Word × Nat
  | a :: b :: r =>
    let v := combine fn h2 a b
    let t := combinePairs fn h2 r
    (v.1 :: t.1, v.2 ||| t.2)
  | l => (l, 0)

/-- The pairwise tree over 2^n places (R129), with the flags raised in it. -/
def combineTree (fn : Nat) (h2 : Bool) : Nat → List Word → Word × Nat
  | 0, l => (l.headD 0, 0)
  | n + 1, l =>
    let r := combinePairs fn h2 l
    let t := combineTree fn h2 n r.1
    (t.1, r.2 ||| t.2)

/-- What the members that have arrived carried: the slot that the tree places it at, and function, x and value, if REDX.grp. -/
def Group.brought (e : Group) : List (Nat × Option (Nat × Bool × Word)) :=
  ((List.range 64).filter fun w => e.arrived.getLsbD w).map (fun w => (w, get e.carried w)) ++
    (e.absent.filter fun a => a.2.arrived).map fun a => (a.2.slot, a.2.carried)

/-- The total of a phase in which every arrived member carried the same function: each value at its member's slot number among 64
places, with the identity in the others (R131; DEDUCED, log entry 81); none where they differ. -/
def Group.total (e : Group) : Option Word :=
  match e.brought.filterMap (·.2) with
  | [] => none
  | (fn, h2, _) :: _ =>
    if e.brought.all fun b => (b.2.map fun v => v.1 == fn && v.2.1 == h2).getD false then
      some (combineTree fn h2 6 ((List.range 64).map fun w =>
        match e.brought.filterMap fun b => if b.1 = w then b.2.map (·.2.2) else none with
        | [] => reduceIdentity fn h2
        | v :: r => r.foldl (fun a z => (combine fn h2 a z).1) v)).1
    else none

/-- An entry whose open phase has completed (R89): totals, or 0x2C5 for every arrived member, where some carried REDX.grp
(R131). -/
def Group.complete (e : Group) : Group :=
  let ids := ((List.range 64).filter fun w => e.arrived.getLsbD w) ++ (e.absent.filter fun a => a.2.arrived).map fun a => 64 + a.1
  let left : List (Nat × Nat × Option Word) :=
    if (e.brought.filterMap (·.2)).isEmpty then [] else ids.map fun w => (w, e.phase, e.total)
  { e with phase := e.phase + 1, arrived := 0, due := [], carried := [], results := e.results ++ left,
           absent := e.absent.map fun a => (a.1, { a.2 with arrived := false, carried := none }) }

/-- An entry after the context of a member has been parked under a number and its slot given up: its arrival goes with it (R89). -/
def Group.depart (e : Group) (w n : Nat) : Group :=
  let a : Absent := { slot := w, arrived := e.arrived.getLsbD w, carried := get e.carried w }
  { e.leave w with absent := put e.absent n a, results := e.results.map fun r => if r.1 = w then (64 + n, r.2) else r }

/-- A core whose per-launch entries keep a member that has given up its slot. -/
def Core.departGroups (k : Core) (l w n : Nat) : Core :=
  { k with groups := k.groups.map fun e => if e.launch == l && e.wg.isNone then e.depart w n else e }

/-- An entry without a parked context's member. -/
def Group.forget (e : Group) (n : Nat) : Group :=
  { e with absent := del e.absent n, results := e.results.filter fun r => r.1 != 64 + n }

/-- What the phases of an entry left for a parked context. -/
def Group.leftFor (e : Group) (n : Nat) : List (Nat × Option Word) := (e.results.filter fun r => r.1 == 64 + n).map (·.2)

/-- A core with what the entries of another left for a parked context, now on a slot of its own (R131, R352). -/
def Core.arriveGroups (k : Core) (old : List Group) (l w n : Nat) : Core :=
  { k with groups := k.groups.map fun e =>
      if e.launch == l && e.wg.isNone then
        { e with results := e.results ++ ((old.filter fun o => o.launch == l && o.wg.isNone && o.image == e.image).flatMap fun o =>
            o.leftFor n).map fun r => (w, r) }
      else e }

/-- An entry from which a slot has taken what a phase left. -/
def Group.collect (e : Group) (w phase : Nat) : Group :=
  { e with results := e.results.filter fun r => !(r.1 == w && r.2.1 == phase) }

/-! ### Waking at a passed phase -/

/-- Whether a split waits at BAR for a phase of a group below n. -/
def Split.passed (p : Split) (g n : Nat) : Bool :=
  match p.wait with
  | .phase h ph => h == g && decide (ph < n)
  | _ => false

/-- The word BAR #g (R90). -/
def barWord (g : Nat) : Word := BitVec.ofNat 32 (0x0A700000 + g)

/-- A warp whose split, where it waited at a passed phase, has finished its BAR: an acquire (R91, R278). -/
def Warp.passBar (x : Warp) (b : Bool) (g n : Nat) : Warp :=
  match x.split b with
  | none => x
  | some p => if p.passed g n then (x.setSplit b (some { p.unbuffer with wait := .none })).advance b else x

/-- A warp whose other split is held at its BAR again. -/
def Warp.holdBar (x : Warp) (b : Bool) (g n : Nat) : Warp :=
  match x.split b with
  | none => x
  | some p => if p.passed g n then x.setSplit b (some { p with wait := .bar g }) else x

/-- The phase a split waits for. -/
def Split.waits (p : Split) : Nat :=
  match p.wait with
  | .phase _ ph => ph
  | _ => 0

/-- The state in which the splits of a slot that wait at a passed phase of an entry go on, or take 0x2C5 (R89, R90, R131). -/
def State.wakeBar (s : State) (c w : Nat) (e : Group) : State :=
  match s.warp c w with
  | none => s
  | some x =>
    let at_ (b : Bool) : Bool := ((x.split b).map fun p => p.passed e.image e.phase).getD false
    if x.status != .running || x.launch != e.launch || !(at_ false || at_ true) then s
    else
      let b := !at_ false
      let ph := ((x.split b).map (·.waits)).getD 0
      match e.result w ph with
      | some none =>
        let k := s.core c
        let s := s.setCore c (k.mapGroup x.launch w e.image (·.collect w ph))
        let y := x.holdBar (!b) e.image e.phase
        let y := y.setSplit b ((y.split b).map fun p => { p with wait := .none })
        let u : Cur := { core := c, slot := w, b := b }
        (s.putWarp u y).take u (Trap.of 0x2C5 e.image) (barWord e.image)
      | _ => s.setWarp c w ((x.passBar false e.image e.phase).passBar true e.image e.phase)

/-- BARRIER_PHASE_COMPLETE (R89): the open phase of an entry completes where every present member has arrived, and what waits
at a passed phase goes on. -/
def execBarrierPhaseComplete (c g : Nat) (s : State) : Out :=
  match (s.core c).groups[g]? with
  | none => .next s
  | some e =>
    let e := if s.phaseDone c e then e.complete else e
    let k := s.core c
    let s := s.setCore c { k with groups := k.groups.set g e }
    .next ((List.range 64).foldl (fun s w => if e.members.getLsbD w then s.wakeBar c w e else s) s)

/-! ### BAR, BARA and BARW (R90) -/

/-- The group a word names, or the causes of naming it: 0x2C4, then 0x2C6 where its arming is not as the word needs. -/
def State.groupFor (s : State) (c : Cur) (x : Warp) (g : Nat) (armed : Bool) : Except Trap Group :=
  match (s.core c.core).group x.launch c.slot g with
  | none => .error (Trap.of 0x2C4 g)
  | some e => if (get x.armed g).isSome != armed then .error (Trap.of 0x2C6 g) else .ok e

/-- The state with an entry changed as seen from a slot. -/
def State.updGroup (s : State) (c : Cur) (launch g : Nat) (f : Group → Group) : State :=
  s.setCore c.core ((s.core c.core).mapGroup launch c.slot g f)

/-- Whether a split stands at a BAR of another group. -/
def Split.atOtherBar (p : Split) (g : Nat) : Bool :=
  match p.wait with
  | .bar h => h != g
  | _ => false

/-- A warp with a change to state that a context saves: in a handler it sets the dirty mark (R347). -/
def Warp.touched (x : Warp) : Warp := { x with dirty := x.dirty || x.frozen.isSome }

/-- A warp whose splits all wait for a phase at BAR g. -/
def Warp.waitPhase (x : Warp) (g phase : Nat) : Warp :=
  let f (o : Option Split) : Option Split := o.map fun p => p.block (.phase g phase) (barWord g)
  { x with a := f x.a, b := f x.b }

/-- BAR (R90). -/
def execBar (f : FmtL) (s : State) : Out :=
  issue (.bar f) s fun s c x p =>
    let g := f.imm.toNat
    match s.groupFor c x g false with
    | .error t => .error t
    | .ok e =>
      let other := x.split (!c.b)
      if (other.map (·.atOtherBar g)).getD false then .error (Trap.of 0x2C5 g)
      else if x.spilled || !((other.map (·.atBar g)).getD true) then
        .ok (s.blockAt c x p (.bar f) (.bar g))
      else
        .ok ((s.updGroup c x.launch g (·.arrive c.slot x.dueWrites)).putWarp c (x.waitPhase g e.phase).touched)

/-- BARA (R90). -/
def execBara (f : FmtL) (s : State) : Out :=
  issue (.bara f) s fun s c x _ =>
    let g := f.imm.toNat
    match s.groupFor c x g false with
    | .error t => .error t
    | .ok e =>
      if x.live != 1 then .error (Trap.of 0x2C5 g)
      else .ok ((s.updGroup c x.launch g (·.arrive c.slot x.dueWrites)).putWarp c
        ({ x with armed := put x.armed g e.phase }.touched.advance c.b))

/-- BARW (R90): it is blocked until the phase it was armed for has completed; its return is an acquire (R91). -/
def execBarw (f : FmtL) (s : State) : Out :=
  issue (.barw f) s fun s c x p =>
    let g := f.imm.toNat
    match s.groupFor c x g true with
    | .error t => .error t
    | .ok e =>
      if x.live != 1 then .error (Trap.of 0x2C5 g)
      else
        let ph := (get x.armed g).getD 0
        if e.phase ≤ ph then .ok (s.blockAt c x p (.barw f) (.barw g))
        else match e.result c.slot ph with
          | some none =>
            .ok (((s.updGroup c x.launch g (·.collect c.slot ph)).putWarp c
              (x.setSplit c.b (some { p with wait := .none }))).take c (Trap.of 0x2C5 g) (wordOf (.barw f)))
          | _ => .ok (s.putWarp c
              (({ x with armed := del x.armed g }.touched.setSplit c.b (some { p.unbuffer with wait := .none })).advance c.b))

end Sys2Proof.Machine
end

