-- ==== Sys2Proof/Machine/LaneInt.lean ====
section
/-! DEFINITION. The lane integer instructions (R115 to R117). -/

namespace Sys2Proof.Machine

open Sys2Proof

/-- The pattern of an element with a value. -/
def elemOf (w : Nat) (v : Int) : Nat := wrap w v

/-- The number of 1 bits. -/
def popCount : Nat → Nat → Nat
  | 0, _ => 0
  | w + 1, a => a % 2 + popCount w (a / 2)

/-- Leading zeros of a w-bit element; w for 0. -/
def leadingZeros (w a : Nat) : Nat := if a % 2 ^ w = 0 then w else w - 1 - (a % 2 ^ w).log2

/-- A w-bit element with its bits in reverse order. -/
def reverseBits : Nat → Nat → Nat
  | 0, _ => 0
  | w + 1, a => a % 2 * 2 ^ w + reverseBits w (a / 2)

/-- A shift right with sign fill; w or more gives all sign bits (R115, R134). -/
def shiftRightSigned (w a b : Nat) : Nat := wrap w (signed w a / (2 : Int) ^ min b w)

/-- A shift left; 0 for w or more. -/
def shiftLeft (w a b : Nat) : Nat := if w ≤ b then 0 else a * 2 ^ b % 2 ^ w

/-- A shift right with zero fill; 0 for w or more. -/
def shiftRight (w a b : Nat) : Nat := if w ≤ b then 0 else a / 2 ^ b

/-- A rotation left by b mod w. -/
def rotateLeft (w a b : Nat) : Nat := (a * 2 ^ (b % w) + a / 2 ^ (w - b % w)) % 2 ^ w

/-- The signed minimum. -/
def minSigned (w a b : Nat) : Nat := if signed w a ≤ signed w b then a else b

/-- The signed maximum. -/
def maxSigned (w a b : Nat) : Nat := if signed w a ≤ signed w b then b else a

/-- The field position of BFX and BFI (R117). -/
def fieldPos (w b : Nat) : Nat := b % w

/-- The field length of BFX and BFI (R117), at most the width. -/
def fieldLen (w b : Nat) : Nat := min w (bitsOf (if w = 32 then 6 else 5) 8 b)

/-- BFX (R117). -/
def extractField (w a b : Nat) : Nat := a / 2 ^ fieldPos w b % 2 ^ fieldLen w b

/-- BFI (R117): bits [pos + len − 1 : pos] of c, as far as the element reaches, come from a. -/
def insertField (w a b c : Nat) : Nat :=
  let p := fieldPos w b
  let n := min (fieldLen w b) (w - p)
  c % 2 ^ p + a % 2 ^ n * 2 ^ p + c / 2 ^ (p + n) * 2 ^ (p + n)

/-- MOV (R115); x has no effect (R116). -/
def execMov (f : Fmt3) (s : State) : Out :=
  laneWord (.mov f) s f.nw f.g f.neg f.d.toNat 4 [f.a.toNat] fun x p l => x.val p (.int 32) f.a.toNat l

/-- MOVI (R115). -/
def execMovi (f : FmtI) (s : State) : Out :=
  laneWord (.movi f) s f.nw f.g f.neg 0 4 [] fun _ _ _ => f.imm.signExtend 32

/-- IADD (R115). -/
def execIadd (f : Fmt3) (s : State) : Out := intBin (.iadd f) f s fun _ a b => a + b

/-- ISUB (R115). -/
def execIsub (f : Fmt3) (s : State) : Out := intBin (.isub f) f s fun w a b => wrap w ((a : Int) - b)

/-- IMUL (R115). -/
def execImul (f : Fmt3) (s : State) : Out := intBin (.imul f) f s fun _ a b => a * b

/-- IMULH (R115). -/
def execImulh (f : Fmt3) (s : State) : Out := intBin (.imulh f) f s fun w a b => wrap w (signed w a * signed w b / 2 ^ w)

/-- IMAD (R115). -/
def execImad (f : Fmt4) (s : State) : Out := intTri (.imad f) f s fun _ a b c => a * b + c

/-- IMIN (R115). -/
def execImin (f : Fmt3) (s : State) : Out := intBin (.imin f) f s minSigned

/-- IMAX (R115). -/
def execImax (f : Fmt3) (s : State) : Out := intBin (.imax f) f s maxSigned

/-- IABS (R115). -/
def execIabs (f : Fmt3) (s : State) : Out := intUn (.iabs f) f s fun w a => (signed w a).natAbs

/-- ADDI (R115). -/
def execAddi (f : FmtI) (s : State) : Out := intImm (.addi f) f s fun a b => a + b

/-- AND (R115). -/
def execAnd (f : Fmt3) (s : State) : Out := intBin (.and f) f s fun _ a b => a &&& b

/-- OR (R115). -/
def execOr (f : Fmt3) (s : State) : Out := intBin (.or f) f s fun _ a b => a ||| b

/-- XOR (R115). -/
def execXor (f : Fmt3) (s : State) : Out := intBin (.xor f) f s fun _ a b => a ^^^ b

/-- ANDN (R115). -/
def execAndn (f : Fmt3) (s : State) : Out := intBin (.andn f) f s fun w a b => a &&& (2 ^ w - 1 - b)

/-- ANDI (R115). -/
def execAndi (f : FmtI) (s : State) : Out := intImm (.andi f) f s fun a b => a &&& b

/-- ORI (R115). -/
def execOri (f : FmtI) (s : State) : Out := intImm (.ori f) f s fun a b => a ||| b

/-- XORI (R115). -/
def execXori (f : FmtI) (s : State) : Out := intImm (.xori f) f s fun a b => a ^^^ b

/-- SHL (R115, R116). -/
def execShl (f : Fmt3) (s : State) : Out := intBin (.shl f) f s shiftLeft

/-- SHR (R115, R116). -/
def execShr (f : Fmt3) (s : State) : Out := intBin (.shr f) f s shiftRight

/-- SAR (R115, R116). -/
def execSar (f : Fmt3) (s : State) : Out := intBin (.sar f) f s shiftRightSigned

/-- ROT (R115, R116). -/
def execRot (f : Fmt3) (s : State) : Out := intBin (.rot f) f s rotateLeft

/-- SHLI (R115). -/
def execShli (f : FmtI) (s : State) : Out :=
  intImm (.shli f) f s fun a b => BitVec.ofNat 32 (shiftLeft 32 a.toNat b.toNat)

/-- SHRI (R115). -/
def execShri (f : FmtI) (s : State) : Out :=
  intImm (.shri f) f s fun a b => BitVec.ofNat 32 (shiftRight 32 a.toNat b.toNat)

/-- SARI (R115). -/
def execSari (f : FmtI) (s : State) : Out :=
  intImm (.sari f) f s fun a b => BitVec.ofNat 32 (shiftRightSigned 32 a.toNat b.toNat)

/-- POPC (R115). -/
def execPopc (f : Fmt3) (s : State) : Out := intUn (.popc f) f s popCount

/-- CLZ (R115). -/
def execClz (f : Fmt3) (s : State) : Out := intUn (.clz f) f s leadingZeros

/-- BREV (R115). -/
def execBrev (f : Fmt3) (s : State) : Out := intUn (.brev f) f s reverseBits

/-- BFX (R117). -/
def execBfx (f : Fmt3) (s : State) : Out := intBin (.bfx f) f s extractField

/-- BFI (R117). -/
def execBfi (f : Fmt4) (s : State) : Out := intTri (.bfi f) f s insertField

end Sys2Proof.Machine
end

