-- ==== Sys2Proof/Machine/LanePred.lean ====
section
/-! DEFINITION. Compares, predicate logic and movement, and selects of both sets (R109 to R111, R118 to R124). -/

namespace Sys2Proof.Machine

open Sys2Proof

/-- An integer condition on w-bit elements (Table 4 of R44). -/
def intCond (cc w a b : Nat) : Bool :=
  if cc = 0 then a == b else if cc = 1 then a != b
  else if cc = 2 then decide (signed w a < signed w b) else if cc = 3 then decide (signed w a ≤ signed w b)
  else if cc = 4 then decide (signed w b < signed w a) else if cc = 5 then decide (signed w b ≤ signed w a)
  else if cc = 6 then decide (a < b) else decide (a ≤ b)

/-- A floating condition (R44, R119): a NaN makes the pair unordered. -/
def floatCond (cc : Nat) (a b : Num) : Bool :=
  if a.isNan || b.isNan then cc == 1 || cc == 7
  else
    let lt := ltNum a b
    let gt := ltNum b a
    if cc = 0 then !lt && !gt else if cc = 1 then lt || gt else if cc = 2 then lt else if cc = 3 then !gt
    else if cc = 4 then gt else if cc = 5 then !lt else cc == 6

/-- The predicate bits of a result per element of n bytes (Table 5 of R118). -/
def condBits (n : Nat) (r : Nat → Bool) : BitVec 4 :=
  BitVec.ofNat 4 (bit (r 0) + 2 * bit (r (1 / n)) + 4 * bit (r (2 / n)) + 8 * bit (r (3 / n)))

/-- Element k of n bytes of a word. -/
def elemAt (n k : Nat) (w : Word) : Nat := bitsOf (8 * n) (8 * n * k) w.toNat

/-- An LP word of the lane set that writes a predicate (R110, R111): the sources are read in the lanes with enabled elements of
n bytes; flags raise in enabled elements (R155, R156). -/
def lanePredWord (i : Instr) (f : FmtP) (s : State) (n : Nat) (codes : List Nat)
    (res : Warp → Split → Nat → Nat → Bool) (flags : Warp → Split → Nat → Nat → Nat) : Out :=
  issue i s fun s c x p =>
    match x.readCause p (laneSources (x.enabledLanes p f.g f.neg n) codes) with
    | some t => .error t
    | none =>
      let en := x.enabled p f.g f.neg n
      let fl (l : Nat) : Nat := (List.range (4 / n)).foldl
        (fun a k => if (en l).getLsbD (n * k) then a ||| flags x p l k else a) 0
      match arithCause x.fpc x.width fl with
      | some t => .error t
      | none =>
        let all := (List.range x.width).foldl (fun a l => a ||| fl l) 0
        .ok (s.putWarp c (((x.raise all).writePred p f.dp.toNat f.x en fun l => condBits n (res x p l)).advance c.b))

/-- A compare of integers (R118). -/
def intCompare (i : Instr) (f : FmtP) (s : State) (n : Nat) : Out :=
  lanePredWord i f s n [f.a.toNat, f.b.toNat]
    (fun x p l k => intCond f.cc.toNat (8 * n) (elemAt n k (x.val p (.int (8 * n)) f.a.toNat l))
      (elemAt n k (x.val p (.int (8 * n)) f.b.toNat l)))
    fun _ _ _ _ => 0

/-- A compare of floating values (R119). -/
def floatCompare (i : Instr) (f : FmtP) (s : State) (n : Nat) (k : Const) (fmt : FloatFmt) : Out :=
  let num (x : Warp) (p : Split) (code l e : Nat) : Num := fmt.unpack (elemAt n e (x.val p k code l))
  lanePredWord i f s n [f.a.toNat, f.b.toNat]
    (fun x p l e => floatCond f.cc.toNat (num x p f.a.toNat l e) (num x p f.b.toNat l e))
    fun x p l e => if (num x p f.a.toNat l e).isSig || (num x p f.b.toNat l e).isSig then fINV else 0

/-- ICMP.W (R118). -/
def execIcmpW (f : FmtP) (s : State) : Out := intCompare (.icmpW f) f s 4

/-- ICMP.H2 (R118). -/
def execIcmpH2 (f : FmtP) (s : State) : Out := intCompare (.icmpH2 f) f s 2

/-- ICMP.B4 (R118). -/
def execIcmpB4 (f : FmtP) (s : State) : Out := intCompare (.icmpB4 f) f s 1

/-- FCMP (R119). -/
def execFcmp (f : FmtP) (s : State) : Out := floatCompare (.fcmp f) f s 4 .f32 F32

/-- BCMP2 (R119). -/
def execBcmp2 (f : FmtP) (s : State) : Out := floatCompare (.bcmp2 f) f s 2 .bf16 BF16

/-- A predicate function (Table 6 of R121). -/
def predFn (cc : Nat) (a b : Bool) : Bool :=
  if cc = 0 then a && b else if cc = 1 then a || b else if cc = 2 then a != b else if cc = 3 then !(a && b)
  else if cc = 4 then !(a || b) else if cc = 5 then a == b else a

/-- Bit k of the predicate that a field names, inverted by its bit 3 (R121). -/
def Lane.predField (a : Lane) (fld : BitVec 6) (k : Nat) : Bool :=
  (a.pred (fld.toNat % 8)).getLsbD k != fld.getLsbD 3

/-- PLOG (R121). -/
def execPlog (f : FmtP) (s : State) : Out :=
  lanePredWord (.plog f) f s 1 []
    (fun x _ l k => predFn f.cc.toNat ((x.lane l).predField f.a k) ((x.lane l).predField f.b k))
    fun _ _ _ _ => 0

/-- PSET (R122). -/
def execPset (f : FmtP) (s : State) : Out :=
  lanePredWord (.pset f) f s 1 [f.a.toNat] (fun x p l k => (x.val p (.int 32) f.a.toNat l).getLsbD k) fun _ _ _ _ => 0

/-- PGET (R122). -/
def execPget (f : Fmt3) (s : State) : Out :=
  laneWord (.pget f) s f.nw f.g f.neg f.d.toNat 4 [] fun x _ l =>
    ((x.lane l).pred (f.a.toNat % 8)).setWidth 32

/-- SEL (R123): the select writes 32 bits, one element for guarding (DEDUCED, log entry 21). -/
def execSel (f : Fmt4) (s : State) : Out :=
  laneWord (.sel f) s f.nw f.g f.neg 0 4 [f.a.toNat, f.b.toNat] fun x p l =>
    let h := (x.lane l).pred (f.c.toNat % 8)
    mergeBytes (if f.c.getLsbD 3 then ~~~h else h) (x.val p (.int 32) f.a.toNat l) (x.val p (.int 32) f.b.toNat l)

end Sys2Proof.Machine
end

