-- ==== Sys2Proof/Machine/Uniform.lean ====
section
/-! DEFINITION. Uniform integer instructions, compares, predicate logic and select (R120, R121, R124, R134, R135). -/

namespace Sys2Proof.Machine

open Sys2Proof

/-- An operation on 64 bits, or on the low 32 with the result sign-extended (R134): the width comes first. -/
def onUni (w32 : Bool) (f : Nat → Nat → Nat → Nat → Nat) (a b c : DWord) : DWord :=
  if w32 then (BitVec.ofNat 32 (f 32 (a.toNat % 2 ^ 32) (b.toNat % 2 ^ 32) (c.toNat % 2 ^ 32))).signExtend 64
  else BitVec.ofNat 64 (f 64 a.toNat b.toNat c.toNat)

/-- A U3 integer word with two sources. -/
def uniBin (i : Instr) (f : Fmt3) (s : State) (op : Nat → Nat → Nat → Nat) : Out :=
  uniWord i s f.nw f.g f.neg f.d.toNat [f.a.toNat, f.b.toNat] fun _ _ x p =>
    onUni f.x (fun w a b _ => op w a b) (x.uval p f.a.toNat) (x.uval p f.b.toNat) 0

/-- A U3 integer word with one source. -/
def uniUn (i : Instr) (f : Fmt3) (s : State) (op : Nat → Nat → Nat) : Out :=
  uniWord i s f.nw f.g f.neg f.d.toNat [f.a.toNat] fun _ _ x p =>
    onUni f.x (fun w a _ _ => op w a) (x.uval p f.a.toNat) 0 0

/-- A UI integer word: the immediate is sign-extended to 64 bits. -/
def uniImm (i : Instr) (f : FmtI) (s : State) (op : Nat → Nat → Nat → Nat) : Out :=
  uniWord i s f.nw f.g f.neg 0 [f.a.toNat] fun _ _ x p =>
    BitVec.ofNat 64 (op 64 (x.uval p f.a.toNat).toNat (f.imm.signExtend 64).toNat)

/-- UMOV (R134). -/
def execUmov (f : Fmt3) (s : State) : Out := uniUn (.umov f) f s fun _ a => a

/-- ULDK (R135): the word and its literals are finished together (R36). -/
def execUldk (f : Fmt3) (lit0 lit1 : Word) (s : State) : Out :=
  issue (.uldk f lit0 lit1) s fun s c x p =>
    let v : DWord := if f.x then lit1 ++ lit0 else lit0.signExtend 64
    .ok (s.putWarp c ((x.writeUni c.b p f.nw f.d.toNat (x.cguard f.g f.neg) v).advanceBy c.b (if f.x then 12 else 8)))

/-- UADD (R134). -/
def execUadd (f : Fmt3) (s : State) : Out := uniBin (.uadd f) f s fun _ a b => a + b

/-- USUB (R134). -/
def execUsub (f : Fmt3) (s : State) : Out := uniBin (.usub f) f s fun w a b => wrap w ((a : Int) - b)

/-- UMUL (R134). -/
def execUmul (f : Fmt3) (s : State) : Out := uniBin (.umul f) f s fun _ a b => a * b

/-- UMULH (R134). -/
def execUmulh (f : Fmt3) (s : State) : Out := uniBin (.umulh f) f s fun w a b => wrap w (signed w a * signed w b / 2 ^ w)

/-- UMAD (R134). -/
def execUmad (f : Fmt4) (s : State) : Out :=
  uniWord (.umad f) s f.nw f.g f.neg 0 [f.a.toNat, f.b.toNat, f.c.toNat] fun _ _ x p =>
    onUni f.x (fun _ a b c => a * b + c) (x.uval p f.a.toNat) (x.uval p f.b.toNat) (x.uval p f.c.toNat)

/-- UAND (R134). -/
def execUand (f : Fmt3) (s : State) : Out := uniBin (.uand f) f s fun _ a b => a &&& b

/-- UOR (R134). -/
def execUor (f : Fmt3) (s : State) : Out := uniBin (.uor f) f s fun _ a b => a ||| b

/-- UXOR (R134). -/
def execUxor (f : Fmt3) (s : State) : Out := uniBin (.uxor f) f s fun _ a b => a ^^^ b

/-- USHL (R134). -/
def execUshl (f : Fmt3) (s : State) : Out := uniBin (.ushl f) f s shiftLeft

/-- USHR (R134). -/
def execUshr (f : Fmt3) (s : State) : Out := uniBin (.ushr f) f s shiftRight

/-- USAR (R134). -/
def execUsar (f : Fmt3) (s : State) : Out := uniBin (.usar f) f s shiftRightSigned

/-- UADDI (R134). -/
def execUaddi (f : FmtI) (s : State) : Out := uniImm (.uaddi f) f s fun _ a b => a + b

/-- UANDI (R134). -/
def execUandi (f : FmtI) (s : State) : Out := uniImm (.uandi f) f s fun _ a b => a &&& b

/-- USHLI (R134). -/
def execUshli (f : FmtI) (s : State) : Out := uniImm (.ushli f) f s shiftLeft

/-- USHRI (R134). -/
def execUshri (f : FmtI) (s : State) : Out := uniImm (.ushri f) f s shiftRight

/-- UMIN (R134). -/
def execUmin (f : Fmt3) (s : State) : Out := uniBin (.umin f) f s minSigned

/-- UMAX (R134). -/
def execUmax (f : Fmt3) (s : State) : Out := uniBin (.umax f) f s maxSigned

/-- UPOPC (R134). -/
def execUpopc (f : Fmt3) (s : State) : Out := uniUn (.upopc f) f s popCount

/-- UCLZ (R134). -/
def execUclz (f : Fmt3) (s : State) : Out := uniUn (.uclz f) f s leadingZeros

/-- A uniform predicate with a bit written, ANDed in where x says (R110, R120). -/
def Warp.setC (x : Warp) (d : Nat) (andIn v : Bool) : Warp :=
  let r := if andIn then x.c.getLsbD d && v else v
  { x with c := if r then x.c ||| BitVec.ofNat 7 (2 ^ d) else x.c &&& ~~~(BitVec.ofNat 7 (2 ^ d)) }

/-- An LP word of the uniform set: its bit is written where the guard is true. -/
def uniPredWord (i : Instr) (f : FmtP) (s : State) (codes : List Nat) (res : Warp → Split → Bool) : Out :=
  issue i s fun s c x p =>
    let g := x.cguard f.g f.neg
    match x.readCause p (uniSources g codes) with
    | some t => .error t
    | none => .ok (s.putWarp c ((if g then x.setC f.dp.toNat f.x (res x p) else x).advance c.b))

/-- UCMP (R120). -/
def execUcmp (f : FmtP) (s : State) : Out :=
  uniPredWord (.ucmp f) f s [f.a.toNat, f.b.toNat] fun x p =>
    intCond f.cc.toNat 64 (x.uval p f.a.toNat).toNat (x.uval p f.b.toNat).toNat

/-- The uniform predicate that a field names, inverted by its bit 3 (R121). -/
def Warp.cField (x : Warp) (fld : BitVec 6) : Bool := x.cpred (fld.toNat % 8) != fld.getLsbD 3

/-- UPLOG (R121). -/
def execUplog (f : FmtP) (s : State) : Out :=
  uniPredWord (.uplog f) f s [] fun x _ => predFn f.cc.toNat (x.cField f.a) (x.cField f.b)

/-- USEL (R124). -/
def execUsel (f : Fmt4) (s : State) : Out :=
  uniWord (.usel f) s f.nw f.g f.neg 0 [f.a.toNat, f.b.toNat] fun _ _ x p =>
    let v := if x.cField f.c then x.uval p f.a.toNat else x.uval p f.b.toNat
    if f.x then (v.setWidth 32).signExtend 64 else v

end Sys2Proof.Machine
end

