-- ==== Sys2Proof/Machine/Special.lean ====
section
/-! DEFINITION. The special registers (R136 to R139): what MFS reads and what MTS writes. -/

namespace Sys2Proof.Machine

open Sys2Proof

/-- WARPID (Table 10 of R138). -/
def Warp.warpid (x : Warp) (slot : Nat) : DWord :=
  BitVec.ofNat 64 (bit (x.task.kind == .root) * 2 ^ 12 + slot * 2 ^ 6 + x.windex % 16)

/-- A workgroup coordinate (Table 14 of R138): axis 0 x, 1 y, 2 z. -/
def State.wgCoord (s : State) (x : Warp) (axis : Nat) : DWord :=
  match x.task.kind, x.wg, s.launch x.launch with
  | .root, some i, some l =>
    BitVec.ofNat 64 (if axis = 0 then i % l.nx else if axis = 1 then i / l.nx % l.ny else i / (l.nx * l.ny))
  | _, _, _ => BitVec.ofNat 64 (2 ^ 63)

/-- A grid extent (Table 15 of R138). -/
def State.gridExtent (s : State) (x : Warp) (axis : Nat) : DWord :=
  match s.launch x.launch with
  | some l => BitVec.ofNat 64 (if axis = 0 then l.nx else if axis = 1 then l.ny else l.nz)
  | none => 0

/-- TASKID (Table 11 of R204). -/
def Warp.taskid (x : Warp) : DWord :=
  let t := x.task
  BitVec.ofNat 64 (x.inline.length * 2 ^ 24 + bit (t.kind == .inlineSpawn || t.kind == .inlineJoin) * 2 ^ 16 +
    bit t.xstolen * 2 ^ 15 + bit t.stolen * 2 ^ 14 + bit (t.kind == .root) * 2 ^ 12 + t.index.toNat)

/-- STAGEBASE (Table 7 of R194). -/
def Warp.stagebase (x : Warp) : DWord :=
  if x.task.stageBytes = 0 then 0 else BitVec.ofNat 64 (x.task.stageBytes * 2 ^ 32 + 0x40000000 + x.task.stageOff)

/-- The fields of the special registers to which the spec gives no value on a firmware core: those of Tables 10, 14 to 16, Table 11 of
R204 and Table 7 of R194 (DESIGN CHOICE, log entry 24). The other bits of those registers, and every other register, have 0 here. -/
def fwUnstated (n : Nat) : Nat :=
  if n = 0x000 then 0x1FCF
  else if 0x010 ≤ n && n ≤ 0x012 then 0x80000000000FFFFF
  else if 0x013 ≤ n && n ≤ 0x015 then 0x1FFFFF
  else if n = 0x016 then 0x7F
  else if n = 0x040 then 0xF01DFFF
  else if n = 0x041 then 0xFFFFFFFFFFFFF
  else 0

/-- The value of a special register (Table 9 of R138). On a firmware core COREID reads 64 times the number of its die, as the ORIGIN of
R283 is, and CLUSTID 0 (DESIGN CHOICE, log entry 24). -/
def State.special (s : State) (c : Cur) (x : Warp) (n : Nat) : DWord :=
  let d := coreDie c.core
  if x.fw.isSome && fwUnstated n != 0 then Config.fwSpecial n &&& BitVec.ofNat 64 (fwUnstated n)
  else if n = 0x000 then x.warpid c.slot
  else if n = 0x001 then BitVec.ofNat 64 (originOf c.core)
  else if n = 0x002 then BitVec.ofNat 64 (if isFw c.core then 0 else coreCluster c.core)
  else if n = 0x003 then BitVec.ofNat 64 d
  else if n ≤ 0x012 then s.wgCoord x (n - 0x010)
  else if n ≤ 0x015 then s.gridExtent x (n - 0x013)
  else if n = 0x016 then BitVec.ofNat 64 x.width
  else if n = 0x020 then BitVec.ofNat 64 (s.timeOf d)
  else if n = 0x021 then x.fpc
  else if n ≤ 0x032 then (x.loops.getD (n - 0x030) Loop.off).count.setWidth 64
  else if n = 0x033 then x.splitSp
  else if n = 0x040 then x.taskid
  else if n = 0x041 then x.stagebase
  else if n = 0x050 then x.gang
  else if n = 0x060 then x.tcause
  else if n = 0x061 then x.tpc
  else if n = 0x062 then x.tmask
  else if n = 0x063 then x.tinfo
  else if n = 0x070 then BitVec.ofNat 64 (s.core c.core).xsteal
  else if n = 0x071 then BitVec.ofNat 64 (s.core c.core).lsteal
  else if n = 0x072 then BitVec.ofNat 64 (s.die d).minres
  else match x.fw with
    | some f => if n = 0x080 then BitVec.ofNat 64 f.level else f.vec
    | none => 0

/-- MFS (R136, R139). -/
def execMfs (f : FmtI) (s : State) : Out :=
  uniWord (.mfs f) s f.nw f.g f.neg 0 [] fun s c x _ => s.special c x f.imm.toNat

/-- A value with the bits outside a register's fields ignored (R7). -/
def keepBits (v : DWord) (m : Nat) : DWord := v &&& BitVec.ofNat 64 m

/-- The stochastic state that an MTS to FPC gives a lane (R148). -/
def seedLane (seed l : Nat) : Word :=
  let g := (seed + (l + 1) * 0x9E3779B9) % 2 ^ 32
  if g = 0 then 1 else BitVec.ofNat 32 g

/-- A warp with FPC written and every lane reseeded (R148, R154). -/
def Warp.setFpc (x : Warp) (v : DWord) : Warp :=
  { x with fpc := keepBits v 0xFFFFFFFF00001FFF, dirty := x.dirty || x.frozen.isSome,
           lanes := mapPlace (fun l a => { a with sr := seedLane (v.toNat / 2 ^ 32) l }) 0 x.lanes }

/-- A warp with a loop count written (R86): an inactive level is left as it is, and 0 ends the level and those above. -/
def Warp.setLoop (x : Warp) (j : Nat) (v : Word) : Warp :=
  if (x.loops.getD j Loop.off).count == 0 then x
  else
    let ls := mapPlace (fun i e =>
      if i = j then { e with count := v } else if j < i && v == 0 then { e with count := 0 } else e) 0 x.loops
    { x with loops := ls, loopBuf := keepBuf ls x.loopBuf }

/-- A write of LSTEAL_MIN or XSTEAL_MIN; a reserved value leaves it unchanged (R189). -/
def stealMin (old : Nat) (v : DWord) : Nat := if bitsOf 9 0 v.toNat < 258 then bitsOf 9 0 v.toNat else old

/-- A write of MINRES; a value below 6,000,000 leaves it unchanged (R354). -/
def minresOf (old : Nat) (v : DWord) : Nat :=
  if bitsOf 32 0 v.toNat < 6000000 then old else bitsOf 32 0 v.toNat

/-- Whether a special register is privileged (R138). -/
def srPrivileged (n : Nat) : Bool := 0x070 ≤ n && n ≤ 0x072

/-- The causes of an MTS, in the order of R137, R140 and R80. -/
def Warp.mtsCause (x : Warp) (n : Nat) (v : DWord) : Option Trap :=
  let lvl := x.fw.map (·.level)
  if srPrivileged n && (lvl.isNone || lvl == some 2) then some (Trap.of 0x141 0)
  else if n = 0x081 && lvl != some 0 then some (Trap.of 0x141 0)
  else if n = 0x021 && bitsOf 3 0 v.toNat == 7 then some (Trap.of 0x083 n)
  else if n = 0x033 && 7 ≤ bitsOf 4 0 v.toNat then some (Trap.of 0x083 n)
  else if (n = 0x070 || n = 0x071) && 258 ≤ bitsOf 9 0 v.toNat then some (Trap.of 0x083 n)
  else if n = 0x033 && (!x.frames.isEmpty || !x.away.isEmpty || x.spills != 0) then some (Trap.of 0x2C3 0xFFFFFFFF)
  else none

/-- A warp with one of its own special registers written. -/
def Warp.mts (x : Warp) (n : Nat) (v : DWord) : Warp :=
  let h := x.dirty || x.frozen.isSome
  if n = 0x021 then x.setFpc v
  else if n = 0x033 then { x with splitSp := keepBits v 0x01FFFFFFFFFFC00F, dirty := h }
  else if n = 0x060 then { x with tcause := keepBits v 0x3BFF, dirty := h }
  else if n = 0x061 then { x with tpc := keepBits v 0x01FFFFFFFFFFFFFC, dirty := h }
  else if n = 0x062 then { x with tmask := v, dirty := h }
  else if n = 0x063 then { x with tinfo := v, dirty := h }
  else if n = 0x081 then { x with fw := x.fw.map fun f => { f with vec := keepBits v 0x01FFFFFFFFFFF000 } }
  else x.setLoop (n - 0x030) (v.setWidth 32)

/-- The state with a special register written (R137). -/
def State.mts (s : State) (c : Cur) (x : Warp) (n : Nat) (v : DWord) : State :=
  let k := s.core c.core
  let d := s.die (coreDie c.core)
  if n = 0x070 then s.setCore c.core { k with xsteal := stealMin k.xsteal v }
  else if n = 0x071 then s.setCore c.core { k with lsteal := stealMin k.lsteal v }
  else if n = 0x072 then s.setDie (coreDie c.core) { d with minres := minresOf d.minres v }
  else s.putWarp c (x.mts n v)

/-- MTS (R136, R137): with a false guard it has no effect. -/
def execMts (f : FmtI) (s : State) : Out :=
  issue (.mts f) s fun s c x p =>
    let g := x.cguard f.g f.neg
    match x.readCause p (uniSources g [f.a.toNat]) with
    | some t => .error t
    | none =>
      if !g then .ok (s.putWarp c (x.advance c.b))
      else
        let v := x.uval p f.a.toNat
        match x.mtsCause f.imm.toNat v with
        | some t => .error t
        | none => .ok ((s.mts c x f.imm.toNat v).retire c)

end Sys2Proof.Machine
end

