-- ==== Sys2Proof/Machine/Control.lean ====
section
/-! DEFINITION. Control space (R383): what its registers read and what a write of each does (R171 to R173, R189, R297, R354,
R355, R384 to R395, R397, R398, R405). -/

namespace Sys2Proof.Machine

open Sys2Proof

/-! ### Requests to warps -/

/-- A warp to which a cause is sent (R342). -/
def Warp.request (x : Warp) (cause : Nat) : Warp :=
  if x.req.contains cause || x.status == .ended || x.status == .failed then x else { x with req := x.req ++ [cause] }

/-- The state in which a cause is sent to the warps of cores and launches that satisfy a test. -/
def State.requestAll (s : State) (cause : Nat) (f : Nat → Slot → Bool) : State :=
  { s with cores := s.cores.map fun k => (k.1, { k.2 with slots := k.2.slots.map fun t =>
      (t.1, if f k.1 t.2 && k.1 < 512 then { t.2 with warp := t.2.warp.map (·.request cause) } else t.2) }) }

/-! ### Partition registers -/

/-- PCTL as it reads (R384). -/
def Part.pctl (p : Part) : DWord := BitVec.ofNat 64 (p.quarters.toNat * 2 ^ 32 + bit p.quiesce * 2 ^ 15 + bit p.en)

/-- Whether a quarter is withheld (R402). -/
def State.withheld (s : State) (q : Nat) : Bool := (s.core (16 * q)).withheld || !(s.die (q / 4)).up

/-- Whether a write may give a partition these quarters (R384). -/
def State.quartersOk (s : State) (p : Nat) (q : BitVec 32) : Bool :=
  (List.range 32).all fun i =>
    !q.getLsbD i || (!s.withheld i && s.parts.all fun e => e.1 == p || !e.2.en || !e.2.quarters.getLsbD i)

/-- The state after a write of PCTL (R384); a level-1 write reaches QUIESCE alone (DEDUCED, log entry 56). -/
def State.writePctl (s : State) (lvl p : Nat) (v : DWord) : State :=
  let e := s.part p
  let z := v.getLsbD 15
  if lvl ≠ 0 then s.setPart p { e with quiesce := z }
  else
    let q : BitVec 32 := BitVec.ofNat 32 (v.toNat / 2 ^ 32)
    if s.quartersOk p q then s.setPart p { e with quarters := q, quiesce := z, en := v.getLsbD 0 } else s

/-- ENUSED as it reads (R392). -/
def Part.enused (p : Part) : DWord := BitVec.ofNat 64 (bit p.refused * 2 ^ 33 + bit p.exh * 2 ^ 32 + p.used)

/-- SHOOT as it reads (R391). -/
def Part.shootWord (p : Part) : DWord := BitVec.ofNat 64 (bit p.busy * 2 ^ 62) ||| keepBits p.shoot 0x21FFFFFFFFFF0003

/-- Whether a shoot-down drops a translation of a level and page (R391). -/
def shoots (v : DWord) (lvl page : Nat) : Bool :=
  let size := bitsOf 2 0 v.toNat
  let sh := if size = 0 then 16 else if size = 1 then 21 else 30
  v.getLsbD 61 || size == 3 ||
    (let a := page * 2 ^ leafShift lvl
     let b := bitsOf 41 16 v.toNat * 65536 / 2 ^ sh * 2 ^ sh
     decide (a < b + 2 ^ sh) && decide (b < a + 2 ^ leafShift lvl))

/-- The page-table roots of a partition's launches and queues. -/
def State.rootsOf (s : State) (p : Nat) : List Nat :=
  ((s.launches.filter fun l => l.2.part == p).map fun l => l.2.root) ++
    ((s.queues.filter fun q => q.2.part == p).map fun q => q.2.root)

/-- The state in which no core and no cluster holds a translation that satisfies a test: its root, level, page and entry (R234). -/
def State.dropHeld (s : State) (f : Nat × Nat × Nat × DWord → Bool) : State :=
  { s with cores := s.cores.map fun k => (k.1, { k.2 with tlb := k.2.tlb.filter fun t => !f t }),
           dies := s.dies.map fun x => { x with tlb := x.tlb.filter fun t => !f t.2 } }

/-- The state after a write of SHOOT (R391): GO while BUSY is 1 is ignored. Whatever core holds a translation of the partition's address
spaces drops it. -/
def State.writeShoot (s : State) (p : Nat) (v : DWord) : State :=
  let e := s.part p
  let s := s.setPart p { e with shoot := keepBits v 0x21FFFFFFFFFF0003 }
  if !v.getLsbD 63 || e.busy then s
  else
    let roots := s.rootsOf p
    let s := s.dropHeld fun t => roots.contains t.1 && shoots v t.2.1 t.2.2.1
    s.setPart p { s.part p with busy := true, shootFrom := s.serial }

/-- Whether a structural operation involves a partition (R394, R395). -/
def State.merges (s : State) (p : Nat) : Bool :=
  s.parts.any fun e => match e.2.merging with
    | some m => e.1 == p || m.other == p
    | none => false

/-- Whether a retirement of a core of a partition is in progress (R394). -/
def State.retires (s : State) (p : Nat) : Bool := s.cores.any fun k => k.2.retire && s.partOf k.1 == some p

/-- The enabled format windows of a partition. -/
def Part.enabledWindows (p : Part) : List (Nat × List DWord) := p.windows.filter fun w => (w.2.getD 0 0).getLsbD 63

/-- The answer to a request for a structural operation (R395, step 1): 1 where it starts. -/
def State.mergeCode (s : State) (a : Nat) (v : DWord) : Nat :=
  let b := bitsOf 5 54 v.toNat
  let mask : BitVec 32 := BitVec.ofNat 32 v.toNat
  let x := s.part a
  let y := s.part b
  let bad := if v.getLsbD 62 then !x.en || y.en || a == b || mask &&& ~~~x.quarters != 0 || mask == x.quarters
             else a == b || !x.en || !y.en || mask != 0
  if bad then 4
  else if s.merges a || s.merges b || s.retires a || s.retires b then 5
  else if !v.getLsbD 62 && 16 < x.enabledWindows.length + y.enabledWindows.length then 3
  else 1

/-- The partition of a slot's launch. -/
def State.slotPart (s : State) (t : Slot) : Option Nat := (s.launch t.launch).map (·.part)

/-- The die of a partition's proxy quarter, whose time base the partition goes by (R392). -/
def State.proxyDie (s : State) (p : Nat) : Nat :=
  ((List.range 32).find? fun q => (s.part p).quarters.getLsbD q).getD 0 / 4

/-- The state after a write of MERGECTL (R395, steps 1 to 3). -/
def State.writeMerge (s : State) (a : Nat) (v : DWord) : State :=
  let x := s.part a
  let s := s.setPart a { x with mergectl := keepBits v 0x47FFFFFFFFFFFFFF }
  if !v.getLsbD 63 then s
  else
    let code := s.mergeCode a v
    let b := bitsOf 5 54 v.toNat
    if code ≠ 1 then s.setPart a { s.part a with mergestat := BitVec.ofNat 64 code }
    else
      let until_ := s.timeOf (s.proxyDie a) + bitsOf 22 32 v.toNat * 1024
      let m : Merging := { other := b, split := v.getLsbD 62, mask := BitVec.ofNat 32 v.toNat, until_ := until_, moved := false }
      let s := s.setPart a { s.part a with mergestat := 1, quiesce := true, merging := some m }
      let s := s.setPart b { s.part b with quiesce := true }
      s.requestAll 0x3C2 fun _ t => s.slotPart t == some a || s.slotPart t == some b

/-! ### Format windows (R171 to R173) -/

/-- The registers of a window. -/
def Part.windowRegs (p : Part) (w : Nat) : List DWord := (get p.windows w).getD [0, 0, 0, 0, 0]

/-- Whether every byte of a range lies in HBM4E that a partition owns (R173, R382). -/
def State.ownsRange (s : State) (p base n : Nat) : Bool :=
  let own := s.slices (some p)
  decide (base + n ≤ 8 * dieBytes) && (List.range 128).all fun i =>
    !(decide (i * sliceBytes < base + n) && decide (base < (i + 1) * sliceBytes)) || own.contains i

/-- The raw, scale and decoded ranges of a window's registers (R172). -/
def windowRanges (r : List DWord) : List (Nat × Nat) :=
  let ctl := (r.getD 0 0).toNat
  let vb := bitsOf 4 4 ctl == 1
  let n := if vb then 128 else 32
  let blocks := bitsOf 32 0 (r.getD 4 0).toNat
  let base (i : Nat) : Nat := bitsOf 36 16 (r.getD i 0).toNat * 65536
  [(base 1, blocks * n * formatBits (bitsOf 4 0 ctl) / 8), (base 2, if vb then 4 * blocks else blocks),
   (base 3, blocks * n * 2)]

/-- Whether two ranges share a byte. -/
def rangesMeet (a b : Nat × Nat) : Bool := decide (a.1 < b.1 + b.2) && decide (b.1 < a.1 + a.2)

/-- Whether a window may be enabled (R173). -/
def State.windowOk (s : State) (p w : Nat) (r : List DWord) : Bool :=
  let ctl := (r.getD 0 0).toNat
  let f := bitsOf 4 0 ctl
  let block := bitsOf 4 4 ctl
  let z := windowRanges r
  let others := ((s.part p).enabledWindows.filter fun e => e.1 != w).map fun e => windowRanges e.2
  let rs : List (Nat × Nat) := z.take 2
  ((block == 0 && 3 ≤ f && f ≤ 8) || (block == 1 && (f == 3 || f == 7 || f == 8))) &&
    bitsOf 32 0 (r.getD 4 0).toNat != 0 && rs.all (fun e => !inAperture e.1 && s.ownsRange p e.1 e.2) &&
    inAperture (z.getD 2 (0, 0)).1 &&
    others.all fun o => (rs.all fun e => (o.take 2).all fun u => !rangesMeet e u) &&
      !rangesMeet (z.getD 2 (0, 0)) (o.getD 2 (0, 0))

/-- The state after a write of a window's register (R171, R173). -/
def State.writeWindow (s : State) (p w reg : Nat) (v : DWord) : State :=
  let e := s.part p
  let r := e.windowRegs w
  let ctl := r.getD 0 0
  let store (r : List DWord) : State := s.setPart p { e with windows := put e.windows w r }
  if ctl.getLsbD 63 then (if reg = 0 && !v.getLsbD 63 then store (r.set 0 (keepBits ctl 0x40000000000000FF)) else s)
  else if reg = 0 then
    let f := keepBits v 0xFF
    if !v.getLsbD 63 then store (r.set 0 (f ||| keepBits ctl 0x4000000000000000))
    else if s.windowOk p w (r.set 0 f) then store (r.set 0 (f ||| 0x8000000000000000))
    else store (r.set 0 (f ||| 0x4000000000000000))
  else if reg = 4 then store (r.set 4 (keepBits v 0xFFFFFFFF))
  else store (r.set reg (keepBits v 0xFFFFFFFFF0000))

/-! ### ATTACH (R398) -/

/-- The region and 1 GiB units of an ATTACH value. -/
def attachRange (v : DWord) : Nat × Nat := (bitsOf 18 30 v.toNat, bitsOf 18 0 v.toNat)

/-- The state after a write of an ATTACH entry: a write that sets EN may be refused. -/
def State.writeAttach (s : State) (n : Nat) (v : DWord) : State :=
  let v := keepBits v 0xFF00FFFFC003FFFF
  let bad := bitsOf 2 61 v.toNat == 0 || bitsOf 18 0 v.toNat == 0 || s.attach.any fun e =>
    e.1 != n && e.2.getLsbD 63 && bitsOf 2 61 e.2.toNat == bitsOf 2 61 v.toNat && rangesMeet (attachRange e.2) (attachRange v)
  { s with attach := put s.attach n (if bad then keepBits v 0x7FFFFFFFFFFFFFFF else v) }

/-! ### Core, die and package registers -/

/-- CORECTL as it reads (R394). -/
def Core.corectl (k : Core) : DWord := BitVec.ofNat 64 (bit k.retired * 4 + bit k.err * 2)

/-- The state after a write of 1 to CORECTL.RETIRE (R394, steps 1 to 3). -/
def State.startRetire (s : State) (c : Nat) : State :=
  let k := s.core c
  let busy := match s.partOf c with
    | some p => s.merges p || s.retires p
    | none => k.retire
  if (s.die (coreDie c)).spares = 0 || busy then s.setCore c { k with err := true }
  else
    let s := s.setCore c { k with err := false, retired := false, retire := true }
    s.requestAll 0x3C1 fun i _ => i == c

/-- DBGCTL as it reads (R355): CMD reads 0, and STOPPED tells of SLOT. -/
def Core.dbgctl (k : Core) : DWord :=
  let stopped := match (get k.slots (bitsOf 6 18 k.dbg.toNat)).bind (·.warp) with
    | some x => (match x.debug with
      | .stopped _ => true
      | .stepping _ _ => true
      | _ => false)
    | none => false
  keepBits k.dbg 0xFC0016 ||| BitVec.ofNat 64 (bit stopped * 8)

/-- A warp asked for a debug stop (R355). -/
def Warp.askStop (x : Warp) : Warp := if x.debug == .none then { x with debug := .asked false } else x

/-- The state after a write of DBGCTL (R355): a stop is asked for at once; a resume or step stays until its row takes it. -/
def State.writeDbg (s : State) (c : Nat) (v : DWord) : State :=
  let k := s.core c
  let k := { k with dbg := keepBits v 0xFF0006 ||| keepBits k.dbg 0x10 }
  let w := bitsOf 6 18 v.toNat
  let k := if bitsOf 2 16 v.toNat = 1 then
      { k with dbg := keepBits k.dbg 0xFC0016,
               slots := mapAt k.slots w fun t => { t with warp := t.warp.map Warp.askStop } }
    else k
  s.setCore c k

/-- Whether a core is hot at a temperature, where it was or was not, under a threshold (R405). -/
def hotAt (hot : Bool) (t limit : Nat) : Bool := decide (limit ≤ t) || (hot && !decide (t + 5 ≤ limit))

/-- A write of THERMHOT; one above 105 leaves it unchanged (R405). -/
def thermhotOf (old : Nat) (v : DWord) : Nat := if 105 < bitsOf 8 0 v.toNat then old else bitsOf 8 0 v.toNat

/-- The state after a write of a die's THERMHOT: its cores are hot, or not, under the new threshold (R405). -/
def State.setThermhot (s : State) (d : Nat) (v : DWord) : State :=
  let n := thermhotOf (s.die d).thermhot v
  let s := s.setDie d { s.die d with thermhot := n }
  (List.range 64).foldl (fun s i =>
    let k := s.core (64 * d + i)
    if hotAt k.hot k.temp n = k.hot then s else s.setCore (64 * d + i) { k with hot := hotAt k.hot k.temp n }) s

/-- A refusal log's word (R388). -/
def State.logWord (s : State) (d t i : Nat) : DWord :=
  let log := (get s.logs (64 * d + t)).getD ([], 0)
  if i = 16 then BitVec.ofNat 64 log.2 else log.1.getD i (BitVec.ofNat 64 (3 * 2 ^ 51))

/-- The state with a refusal log cleared (R388). -/
def State.clearLog (s : State) (d t : Nat) : State := { s with logs := del s.logs (64 * d + t) }

/-- An energy meter of a die (R392, Table 3 of R386): copy engine u as u, partition p's account as 16 + p. -/
def State.meter (s : State) (d u : Nat) : Nat := (get s.meters (64 * d + u)).getD 0

/-- PORTSTAT (R397). -/
def State.portstat (s : State) (d i : Nat) : DWord :=
  let p := (s.die d).ports.getD i (false, 0)
  BitVec.ofNat 64 (min 255 p.2 * 2 ^ 32 + bit p.1)

/-- A key slot nothing has written. -/
def KeySlot.empty : KeySlot := { material := 0, written := 0, granted := false, part := 0 }

/-- A key slot. -/
def State.keySlot (s : State) (k : Nat) : KeySlot := (get s.keys k).getD KeySlot.empty

/-- KEYOWN as it reads (R389). -/
def KeySlot.keyown (k : KeySlot) : DWord :=
  BitVec.ofNat 64 (bit (k.written == 0xFF) * 2 ^ 63 + bit k.granted * 2 ^ 5 + k.part)

/-- A key slot with 8 of its key bytes written (R389). -/
def KeySlot.write (k : KeySlot) (i : Nat) (v : DWord) : KeySlot :=
  { k with
    material := (k.material &&& ~~~(BitVec.ofNat 512 ((2 ^ 64 - 1) * 2 ^ (64 * i)))) ||| BitVec.ofNat 512 (v.toNat * 2 ^ (64 * i)),
    written := k.written ||| BitVec.ofNat 8 (2 ^ i) }

/-- A partition with EXH as USED and BUDGET give it; a budget of 0xFFFFFFFF is no limit (R392). -/
def Part.weigh (p : Part) : Part := { p with exh := p.budget != 0xFFFFFFFF && decide (p.budget.toNat ≤ p.used) }

/-- A partition that has drawn energy in its window (R392). -/
def Part.draw (p : Part) (e : Nat) : Part := { p with used := min (2 ^ 32 - 1) (p.used + e) }.weigh

/-- An energy meter after it has counted on: it never wraps (R392). -/
def metered (n e : Nat) : Nat := min (2 ^ 64 - 1) (n + e)

/-! ### Addresses (Tables 1 to 3) -/

/-- A register of control space. -/
inductive CtrlReg where
  | none
  | corectl (c : Nat)
  | lsteal (c : Nat)
  | xsteal (c : Nat)
  | dbgctl (c : Nat)
  | enmeter (c : Nat)
  | coretemp (c : Nat)
  | minres (d : Nat)
  | thermhot (d : Nat)
  /-- A word of an access table, at an offset of the die control block. -/
  | table (d off : Nat)
  /-- A record guard, at an offset of the die control block. -/
  | guard (d off : Nat)
  | log (d t i : Nat)
  | meter (d u : Nat)
  | portstat (d i : Nat)
  | pctl (p : Nat)
  | enbudget (p : Nat)
  | enused (p : Nat)
  | netwt (p : Nat)
  | shoot (p : Nat)
  | mergectl (p : Nat)
  | mergestat (p : Nat)
  | window (p w reg : Nat)
  | key (k i : Nat)
  | keyown (k : Nat)
  | vfmap (v : Nat)
  | attach (n : Nat)
  deriving DecidableEq, Repr

/-- The register of a die control block's offset (Table 3 of R386). -/
def dieReg (d off : Nat) : CtrlReg :=
  if off = 0 then .minres d
  else if off = 8 then .thermhot d
  else if 0x10000 ≤ off && off < 0x20000 then
    let r := off % 0x1000
    if r < 0x200 then .table d off
    else if r < 0x400 then .guard d off
    else if r < 0x488 then .log d (32 + (off - 0x10000) / 0x1000) ((r - 0x400) / 8)
    else .none
  else if 0x20000 ≤ off && off < 0x22C00 then .table d off
  else if 0x24000 ≤ off && off < 0x24000 + 0x100 * 22 && off % 0x100 < 0x88 then
    .log d ((off - 0x24000) / 0x100) (off % 0x100 / 8)
  else if 0x30000 ≤ off && off < 0x30180 then .meter d ((off - 0x30000) / 8)
  else if 0x40000 ≤ off && off < 0x40020 then .portstat d ((off - 0x40000) / 8)
  else .none

/-- The register of a partition control block's offset (Table 2 of R383). -/
def partReg (p off : Nat) : CtrlReg :=
  if off = 0 then .pctl p
  else if off = 0x10 then .enbudget p
  else if off = 0x18 then .enused p
  else if off = 0x20 then .netwt p
  else if off = 0x28 then .shoot p
  else if off = 0x30 then .mergectl p
  else if off = 0x38 then .mergestat p
  else if 0x400 ≤ off && off < 0x800 && off % 0x40 < 0x28 then .window p ((off - 0x400) / 0x40) (off % 0x40 / 8)
  else .none

/-- The register of the package block's offset (R383, R398). -/
def packageReg (off : Nat) : CtrlReg :=
  if off < 0x100000 then
    if off % 0x80 < 0x40 then .key (off / 0x80) (off % 0x80 / 8)
    else if off % 0x80 = 0x40 then .keyown (off / 0x80) else .none
  else if off < 0x100400 then .vfmap ((off - 0x100000) / 8)
  else if off < 0x200000 then .none
  else if off < 0x200200 then .attach ((off - 0x200000) / 8)
  else .none

/-- The register of the core control block's offset (Table 1 of R383). -/
def coreReg (c off : Nat) : CtrlReg :=
  if off = 0 then .corectl c
  else if off = 8 then .lsteal c
  else if off = 0x10 then .xsteal c
  else if off = 0x18 then .dbgctl c
  else if off = 0x20 then .enmeter c
  else if off = 0x28 then .coretemp c
  else .none

/-- The register at an address of control space (R383). -/
def ctrlReg (a : Nat) : CtrlReg :=
  let d := bitsOf 3 32 a
  let blk := bitsOf 8 24 a
  let off := bitsOf 24 0 a
  if blk < 0x40 then coreReg (64 * d + blk) off
  else if blk = 0x40 then dieReg d off
  else if 0x80 ≤ blk && blk < 0xA0 && d == 0 then partReg (blk - 0x80) off
  else if blk = 0xC0 && d == 0 then packageReg off
  else .none

/-- Whether a level-1 write to a register is refused (Table 1 of R383). -/
def CtrlReg.monitorOnly : CtrlReg → Bool
  | .corectl _ => true
  | .thermhot _ => true
  | .table _ _ => true
  | .guard _ _ => true
  | .mergectl _ => true
  | .key _ _ => true
  | .keyown _ => true
  | .vfmap _ => true
  | .attach _ => true
  | _ => false

/-- What a register of control space reads. -/
def State.ctrlRead (s : State) (a : Nat) : DWord :=
  match ctrlReg a with
  | .none => 0
  | .corectl c => (s.core c).corectl
  | .lsteal c => BitVec.ofNat 64 (s.core c).lsteal
  | .xsteal c => BitVec.ofNat 64 (s.core c).xsteal
  | .dbgctl c => (s.core c).dbgctl
  | .enmeter c => BitVec.ofNat 64 (s.core c).energy
  | .coretemp c => BitVec.ofNat 64 (bit (s.core c).hot * 256 + (s.core c).temp % 256)
  | .minres d => BitVec.ofNat 64 (s.die d).minres
  | .thermhot d => BitVec.ofNat 64 (s.die d).thermhot
  | .table d off => BitVec.ofNat 64 (memNat s.ctrl (d * 2 ^ 24 + off) 8)
  | .guard d off => BitVec.ofNat 64 (memNat s.ctrl (d * 2 ^ 24 + off) 8)
  | .log d t i => s.logWord d t i
  | .meter d u => BitVec.ofNat 64 (s.meter d u)
  | .portstat d i => s.portstat d i
  | .pctl p => (s.part p).pctl
  | .enbudget p => (s.part p).budget.setWidth 64
  | .enused p => (s.part p).enused
  | .netwt p => (s.part p).netwt
  | .shoot p => (s.part p).shootWord
  | .mergectl p => (s.part p).mergectl
  | .mergestat p => (s.part p).mergestat
  | .window p w reg => ((s.part p).windowRegs w).getD reg 0
  | .key _ _ => 0
  | .keyown k => (s.keySlot k).keyown
  | .vfmap v => (get s.vfmap v).getD 0
  | .attach n => (get s.attach n).getD 0

/-- The state after a write of a register of control space by a firmware level. -/
def State.ctrlWrite (s : State) (lvl a : Nat) (v : DWord) : State :=
  match ctrlReg a with
  | .corectl c => if v.getLsbD 0 then s.startRetire c else s
  | .lsteal c => s.setCore c { s.core c with lsteal := stealMin (s.core c).lsteal v }
  | .xsteal c => s.setCore c { s.core c with xsteal := stealMin (s.core c).xsteal v }
  | .dbgctl c => s.writeDbg c v
  | .minres d => s.setDie d { s.die d with minres := minresOf (s.die d).minres v }
  | .thermhot d => s.setThermhot d v
  | .table d off => { s with ctrl := memWrite s.ctrl (d * 2 ^ 24 + off) (toBytes 8 v.toNat) }
  | .guard d off => { s with ctrl := memWrite s.ctrl (d * 2 ^ 24 + off) (toBytes 8 (keepBits v 0x800FFFFFFFFF07FF).toNat) }
  | .log d t i => if i = 16 && v == 0 && lvl == 0 then s.clearLog d t else s
  | .pctl p => s.writePctl lvl p v
  | .enbudget p => s.setPart p { s.part p with budget := v.setWidth 32 }.weigh
  | .enused p => if v.getLsbD 33 then s.setPart p { s.part p with refused := false } else s
  | .netwt p => s.setPart p { s.part p with netwt := keepBits v 0xFFF }
  | .shoot p => s.writeShoot p v
  | .mergectl p => s.writeMerge p v
  | .window p w reg => s.writeWindow p w reg v
  | .key k i => { s with keys := put s.keys k ((s.keySlot k).write i v) }
  | .keyown k => { s with keys := put s.keys k { s.keySlot k with granted := v.getLsbD 5, part := bitsOf 5 0 v.toNat } }
  | .vfmap n => { s with vfmap := put s.vfmap n (keepBits v 0x800FFFFFFFFFF01F) }
  | .attach n => s.writeAttach n v
  | _ => s

/-- The cause of a firmware access to control space (R383). -/
def ctrlCause (lvl : Nat) (k : Kind) (a size : Nat) : Option (Nat × Nat) :=
  if size != 8 || a % 8 != 0 then some (0x104, 15)
  else if bitsOf 17 35 a != 0 then some (0x103, 15)
  else if k != .read && lvl != 0 && (ctrlReg a).monitorOnly then some (0x141, 15)
  else none

/-- Whether an address reaches control space (R383). -/
def isCtrl (a : Nat) : Bool := bitsOf 5 52 a == 31

end Sys2Proof.Machine
end

