-- ==== Sys2Proof/Machine/MemOps.lean ====
section
/-! DEFINITION. Issuing memory words: the in-flight counters (R220), the addresses and accesses of a word (R235, R248, R252,
R383), the operation it leaves in flight, and a word that holds its split. -/

namespace Sys2Proof.Machine

open Sys2Proof

/-! ### Sizes (R48) -/

/-- Bytes of an access of size code f. -/
def sizeOf (f : Nat) : Nat := [1, 1, 2, 2, 4, 8, 16].getD f 4

/-- Words per lane of an access of size code f: E. -/
def wordsOf (f : Nat) : Nat := if f = 5 then 2 else if f = 6 then 4 else 1

/-- Word i of loaded bytes, extended by the size code (Table 6 of R48). -/
def loadedWord (f : Nat) (b : List Byte) (i : Nat) : Word :=
  let n := ofBytes b
  if f = 1 then BitVec.ofNat 32 (wrap 32 (signed 8 n))
  else if f = 3 then BitVec.ofNat 32 (wrap 32 (signed 16 n))
  else if f ≤ 4 then BitVec.ofNat 32 n
  else BitVec.ofNat 32 (ofBytes ((b.drop (4 * i)).take 4))

/-- Entry i of bytes loaded by LDU (Table 10 of R252). -/
def loadedDWord (f : Nat) (b : List Byte) (i : Nat) : DWord :=
  let n := ofBytes b
  if f = 1 then BitVec.ofNat 64 (wrap 64 (signed 8 n))
  else if f = 3 then BitVec.ofNat 64 (wrap 64 (signed 16 n))
  else if f ≤ 5 then BitVec.ofNat 64 n
  else BitVec.ofNat 64 (ofBytes ((b.drop (8 * i)).take 8))

/-! ### Read-modify-write functions (R222, R250) -/

/-- The new word of an atomic function on w bits (Table 7 of R222). -/
def atomFn (fn w old b cmp : Nat) : Nat :=
  (if fn = 0 then old + b
   else if fn = 1 then (if signed w old ≤ signed w b then old else b)
   else if fn = 2 then (if signed w b ≤ signed w old then old else b)
   else if fn = 3 then old &&& b
   else if fn = 4 then old ||| b
   else if fn = 5 then old ^^^ b
   else if fn = 6 then b
   else if old = cmp then b else old) % 2 ^ w

/-- The new word of a reduction (Table 9 of R250): RNE, subnormals kept, no flag. -/
def redFn (fn old b : Nat) : Nat :=
  if fn < 6 then atomFn fn 32 old b 0
  else if fn = 6 then (F32.add .rne 0 (F32.unpack old) (F32.unpack b)).bits
  else
    (BF16.add .rne 0 (BF16.unpack (old % 65536)) (BF16.unpack (b % 65536))).bits +
      (BF16.add .rne 0 (BF16.unpack (old / 65536)) (BF16.unpack (b / 65536))).bits * 65536

/-! ### Operations in flight (R220) -/

/-- Whether a counter is full, so that no instruction of its path issues. -/
def Warp.full (x : Warp) (path : Nat) : Bool := decide (255 ≤ x.counter path)

/-- An operation about to issue, numbered by the state's next serial number. -/
def State.newOp (s : State) (i : Instr) (path : Nat) (kind : OpKind) (scope : Nat) (acq rel : Bool) (accs : List Acc) : Op :=
  { id := s.serial, path := path, kind := kind, word := wordOf i, scope := scope, acq := acq, rel := rel, accs := accs,
    done := false }

/-- A warp with an operation in flight. -/
def Warp.addOp (x : Warp) (o : Op) : Warp := { x with ops := x.ops ++ [o] }

/-- The state after a warp has issued an operation: the warp as the word leaves it. -/
def State.issueOp (s : State) (c : Cur) (x : Warp) (o : Op) : State := s.fresh.putWarp c (x.addOp o)

/-- The key index under which an access reads and writes. -/
def Acc.keyIdx (a : Acc) : Option Nat := keyOf a.pa (if a.key = noKey then none else some a.key)

/-- An access to a translated page, without data. -/
def Acc.ofLeaf (lane va size : Nat) (l : Leaf) : Acc :=
  { lane := lane, va := va, pa := l.pa, size := size, key := l.key.getD noKey, type := l.type, hs := l.hs, data := [],
    opnd := 0, cmp := 0, got := none }

/-! ### Lane accesses to global memory (R235, R248) -/

/-- The lanes of a mask, ascending. -/
def lanesOf (w : Nat) (m : LaneMask) : List Nat := (List.range w).filter fun l => m.getLsbD l

/-- The sources of a lane memory word: the base and the offset, read in the active lanes, and more. -/
def memSources (f : FmtM) (act : LaneMask) (codes : List Nat) : List Source :=
  { uni := true, code := 16 + f.base.toNat, lanes := act } ::
    laneSources act (f.a.toNat :: codes)

/-- The address of a lane (R248). -/
def Warp.laneVa (x : Warp) (p : Split) (f : FmtM) (l : Nat) : Nat :=
  ((x.uval p (16 + f.base.toNat)).toNat + ((x.val p (.int 32) f.a.toNat l).signExtend 64).toNat) % 2 ^ 57

/-- The earliest of the causes in a list (R235, R255). -/
def worstCause : List (Nat × Nat × Except (Nat × Nat) Leaf) → Option Nat
  | [] => none
  | (_, _, .ok _) :: r => worstCause r
  | (_, _, .error e) :: r =>
    match worstCause r with
    | none => some e.1
    | some c => some (if causeRank c < causeRank e.1 then c else e.1)

/-- Whether a lane's check gave a cause. -/
def gave (c : Nat) (e : Nat × Nat × Except (Nat × Nat) Leaf) : Bool :=
  match e.2.2 with
  | .error z => z.1 == c
  | .ok _ => false

/-- The accesses of checked lanes, or the cause with every lane that fails with it (R235). -/
def laneChecks (w size : Nat) (k : Kind) (r : List (Nat × Nat × Except (Nat × Nat) Leaf)) : Except Trap (List Acc) :=
  match worstCause r with
  | some c =>
    let bad := r.filter (gave c)
    let level := match bad with
      | (_, _, .error e) :: _ => e.2
      | _ => 15
    .error (Trap.lanes c (memInfo level k) (maskOf w fun l => bad.any fun e => e.1 == l))
  | none => .ok (r.filterMap fun e => match e.2.2 with
    | .ok l => some (Acc.ofLeaf e.1 e.2.1 size l)
    | .error _ => none)

/-- The accesses of the active lanes of a word, translated and checked (R235). -/
def State.laneAccs (s : State) (c : Cur) (x : Warp) (p : Split) (f : FmtM) (k : Kind) (pkg : Bool) (size : Nat)
    (act : LaneMask) : Except Trap (List Acc) :=
  let w := s.whoOf c.core x
  laneChecks x.width size k ((lanesOf x.width act).map fun l =>
    let va := x.laneVa p f l
    (l, va, s.access w (s.tlb c.core) k pkg va size))

/-- The state in which a core holds the translations of accesses (R234). -/
def State.holdAccs (s : State) (c : Cur) (x : Warp) (accs : List Acc) : State :=
  let w := s.whoOf c.core x
  accs.foldl (fun s a => s.hold c.core w a.va) s

/-- A lane's data for a store of size code f: word i from source code b + i (R221). -/
def Warp.laneData (x : Warp) (p : Split) (b f l : Nat) : List Byte :=
  ((List.range (wordsOf f)).flatMap fun i => toBytes 4 (x.val p (.int 32) (b + i) l).toNat).take (sizeOf f)

/-- The accesses of a store with their data: of lanes with one address the highest stands (R213, R248). -/
def storeAccs (data : Nat → List Byte) : List Acc → List Acc
  | [] => []
  | a :: r => (if r.any fun e => e.pa == a.pa then [] else [{ a with data := indexed (data a.lane) }]) ++ storeAccs data r

/-- The accesses of an atomic or reduction with their operands. -/
def atomAccs (x : Warp) (p : Split) (b : Nat) (accs : List Acc) : List Acc :=
  accs.map fun a => { a with opnd := (x.val p (.int 32) b a.lane).toNat, cmp := (x.val p (.int 32) 0 a.lane).toNat }

/-- A lane word that accesses global memory: its counter, its sources, its checks, and then its operation and destination.
With no active lane it only moves the queue, where it has a destination. -/
def globalWord (i : Instr) (f : FmtM) (s : State) (size : Nat) (codes : List Nat) (k : Kind) (pkg : Bool)
    (op : State → Warp → Split → List Acc → Op) (dest : Option (Nat × Nat)) : Out :=
  issue i s fun s c x p =>
    if x.full 1 then .ok s
    else
      let act := x.active p f.g f.neg
      match x.readCause p (memSources f act codes) with
      | some t => .error t
      | none =>
        let expect (x : Warp) (id : Nat) : Warp := match dest with
          | some (d, e) => x.expectLanes p id d e act
          | none => x
        if act == 0 then .ok (s.putWarp c ((expect x 0).advance c.b))
        else
          match s.laneAccs c x p f k pkg size act with
          | .error t => .error t
          | .ok accs =>
            let o := op s x p accs
            .ok ((s.holdAccs c x accs).issueOp c ((expect x o.id).advance c.b) o)

/-! ### Uniform accesses (R252, R380, R383) -/

/-- The type that marks an access to control space. -/
def ctrlType : Nat := 16

/-- The address of a uniform memory word. -/
def Warp.uniVa (x : Warp) (p : Split) (f : FmtM) : Nat :=
  ((x.uval p (16 + f.base.toNat)).toNat + (x.uval p f.a.toNat).toNat) % 2 ^ 57

/-- The cause of a level-2 access outside the guards (R380). -/
def guardCause (k : Kind) : Nat := if k == .write || k == .atomic then 0x143 else 0x142

/-- The kind of a guard's grant that an access needs. -/
def guardKind (k : Kind) : Nat := if k == .write || k == .atomic then 1 else 0

/-- The access of a uniform word at an address, translated and checked; on a firmware core it may reach control space, and at
level 2 it must lie in a guard. -/
def State.uniAccess (s : State) (c : Cur) (x : Warp) (k : Kind) (pkg : Bool) (va size : Nat) : Except (Nat × Nat) Acc :=
  let lvl := (x.fw.map (·.level)).getD 3
  if lvl < 2 && isCtrl va then
    match ctrlCause lvl k va size with
    | some e => .error e
    | none => .ok { lane := 0, va := va, pa := va, size := size, key := noKey, type := ctrlType, hs := false, data := [],
                    opnd := 0, cmp := lvl, got := none }
  else
    let r := s.access (s.whoOf c.core x) (s.tlb c.core) k pkg va size
    let bad := lvl == 2 && !x.guarded (guardKind k) va size
    match r with
    | .error e => .error (if bad && causeRank (guardCause k) < causeRank e.1 then (guardCause k, 15) else e)
    | .ok l => if bad then .error (guardCause k, 15) else .ok (Acc.ofLeaf 0 va size l)

/-- A uniform word that accesses memory: a false guard makes no access, and copies k0 where it would push. -/
def uniMemWord (i : Instr) (f : FmtM) (s : State) (size : Nat) (codes : List Nat) (k : Kind)
    (op : State → Warp → Split → Acc → Op) (dest : Option (Nat × Nat)) : Out :=
  issue i s fun s c x p =>
    if x.full 1 then .ok s
    else
      let g := x.cguard f.g f.neg
      match x.readCause p (uniSources g ((16 + f.base.toNat) :: f.a.toNat :: codes)) with
      | some t => .error t
      | none =>
        let expect (x : Warp) (id : Nat) : Warp := match dest with
          | some (d, e) => x.expectUni id d e g
          | none => x
        if !g then .ok (s.putWarp c ((expect x 0).advance c.b))
        else
          match s.uniAccess c x k false (x.uniVa p f) size with
          | .error e => .error (Trap.of e.1 (memInfo e.2 k))
          | .ok a =>
            let o := op s x p a
            .ok ((s.holdAccs c x (if a.type = ctrlType then [] else [a])).issueOp c ((expect x o.id).advance c.b) o)

/-! ### Words that hold their split -/

/-- A word's first serial number, where it holds its split: operations below it were issued before it. -/
def Split.heldFrom (p : Split) (n : Nat) : Nat :=
  match p.wait with
  | .hold m _ => m
  | .fence m => m
  | .lines m _ _ => m
  | _ => n

/-- Whether a SAVEC that holds its split has written its context: 1 then (R347). -/
def Split.heldAt (p : Split) : Nat :=
  match p.wait with
  | .hold _ n => n
  | _ => 0

/-- A split held at its word, which it keeps. -/
def Split.held (p : Split) (n pos : Nat) (w : Word) : Split :=
  p.block (.hold (p.heldFrom n) pos) w

/-- The state in which the issuing split is held at its word, at a place. -/
def State.holdAt (s : State) (c : Cur) (x : Warp) (p : Split) (i : Instr) (pos : Nat) : State :=
  s.putWarp c (x.setSplit c.b (some (p.held s.serial pos (wordOf i))))

/-- The state in which the issuing split is held at its word, where it stands. -/
def State.hold_ (s : State) (c : Cur) (x : Warp) (p : Split) (i : Instr) : State := s.holdAt c x p i p.heldAt

/-- The state in which the issuing split has finished a word that may have held it; an acquire empties its fetch buffer. -/
def State.released_ (s : State) (c : Cur) (acq : Bool) : State :=
  s.upd c fun x => match x.split c.b with
    | some p => (x.setSplit c.b (some { (if acq then p.unbuffer else p) with wait := .none })).advance c.b
    | none => x

/-- The operations of a warp that were issued before a number and are not performed. -/
def Warp.undoneBefore (x : Warp) (n : Nat) (f : Op → Bool) : Bool := x.ops.any fun o => decide (o.id < n) && !o.performed && f o

end Sys2Proof.Machine
end

