-- ==== Sys2Proof/Machine/SramMap.lean ====
section
/-! DEFINITION. The macros of core SRAM, the views that their modes give (R209, R212, R216, R217), and the staging ring's
allotments (R216). -/

namespace Sys2Proof.Machine

open Sys2Proof

/-- Where a macro's usable bytes begin in the core's SRAM: macro 0 starts with the task region (R209). -/
def macroBase (m : Nat) : Nat := m * 131072 + if m = 0 then 32768 else 0

/-- The usable bytes of a macro (Table 1 of R209). -/
def macroBytes (m : Nat) : Nat := if m = 0 then 98304 else 131072

/-- The mode of a macro (R209). -/
def Core.mode (k : Core) (m : Nat) : Nat := k.modes.getD m 0

/-- The macros of a mode, ascending. -/
def Core.macros (k : Core) (mode : Nat) : List Nat := (List.range 4).filter fun m => k.mode m == mode

/-- The place in SRAM of an offset into a concatenation of macros. -/
def placeIn : List Nat → Nat → Option Nat
  | [], _ => none
  | m :: r, off => if off < macroBytes m then some (macroBase m + off) else placeIn r (off - macroBytes m)

/-- The place in SRAM of an offset into the concatenated macros of a mode. -/
def Core.place (k : Core) (mode off : Nat) : Option Nat := placeIn (k.macros mode) off

/-- Bytes of the concatenated macros of a mode; Cs for the STAGE macros (R216). -/
def Core.capacity (k : Core) (mode : Nat) : Nat := (k.macros mode).foldl (fun a m => a + macroBytes m) 0

/-- n bytes of SRAM at a place. -/
def Core.sramRead (k : Core) (a n : Nat) : List Byte := memRead k.sram a n

/-- A core with bytes written at places of SRAM: a word that is rewritten whole is good again (R215). -/
def Core.sramPut (k : Core) (l : List (Nat × Byte)) : Core :=
  { k with sram := memPatch k.sram 0 l,
           badWords := k.badWords.filter fun w => !(List.range 4).all fun i => l.any fun e => e.1 == 4 * w + i }

/-- A core with bytes written in SRAM. -/
def Core.sramWrite (k : Core) (a : Nat) (b : List Byte) : Core := k.sramPut ((indexed b).map fun e => (a + e.1, e.2))

/-- A byte of SRAM where no poison mark can go with it: of an uncorrectable word it is a free value (R215; DESIGN CHOICE, log entry 39). -/
def Core.sramByte (k : Core) (a : Nat) : Byte :=
  if k.badWords.contains (a / 4) then Config.badByte a (memGet k.sram a) else memGet k.sram a

/-- n bytes at an offset of the staging ring or the scratchpad of a core (a byte at a time, since a run may cross macros). -/
def Core.viewRead (k : Core) (mode off n : Nat) : List Byte :=
  (List.range n).map fun i => ((k.place mode (off + i)).map k.sramByte).getD 0

/-- Whether n bytes at an offset of a view touch an uncorrectable word (R215). -/
def Core.viewBad (k : Core) (mode off n : Nat) : Bool :=
  !k.badWords.isEmpty && (List.range n).any fun i => (k.place mode (off + i)).any fun a => k.badWords.contains (a / 4)

/-- A core with bytes written from an offset of a view. -/
def Core.viewWrite (k : Core) (mode off : Nat) (b : List Byte) : Core :=
  k.sramPut ((indexed b).filterMap fun e => (k.place mode (off + e.1)).map fun a => (a, e.2))

/-! ### Allotments of the staging ring (R216) -/

/-- Whether the ring is full. -/
def Core.ringFull (k : Core) : Bool := !k.allots.isEmpty && k.head == k.tail

/-- The free bytes that a thief offers and that BANKQ reports (R216). -/
def Core.ringFree (k : Core) : Nat :=
  let cs := k.capacity 2
  if k.allots.isEmpty then cs
  else if k.ringFull then 0
  else if k.head < k.tail then k.tail - k.head
  else max (cs - k.head) k.tail

/-- The place of an allotment of n bytes, and whether bytes are skipped before it; none where it does not fit now. -/
def Core.allotAt (k : Core) (n : Nat) : Option (Nat × Bool) :=
  let cs := k.capacity 2
  if k.allots.isEmpty then (if n ≤ cs then some (0, false) else none)
  else if k.ringFull then none
  else if k.head < k.tail then (if n ≤ k.tail - k.head then some (k.head, false) else none)
  else if n ≤ cs - k.head then some (k.head, false)
  else if n ≤ k.tail then some (0, true)
  else none

/-- A core with an allotment made at a place: HEAD moves past it, and to 0 at the end of the ring (R216). -/
def Core.allot (k : Core) (id off n : Nat) (skipped : Bool) (words : List Word) (launch : Nat) (inputs : List Nat) : Core :=
  let h := off + n
  { k with head := if h = k.capacity 2 then 0 else h,
           allots := k.allots ++ [{ id := id, off := off, len := n, freed := false, skipped := skipped, words := words,
                                    launch := launch, tiles := inputs, moved := [], fault := none }] }

/-- Whether a slot waits for ring space: a task staging on it, or an inline call of its warp (R191, R196). -/
def Slot.asks (z : Slot) : Bool :=
  (z.use == .staging && z.task.any fun t => t.allot.isNone) ||
    z.warp.any fun x => x.asks && x.status == .running && match x.debug with
      | .stopped _ => false
      | _ => true

/-- The slots whose requests for ring space wait at the queue controller, in the order in which they reached it (R216). -/
def Core.asking (k : Core) : List Nat := k.asks.filter fun w => (get k.slots w).any Slot.asks

/-- A core that a slot's new request for ring space has reached. -/
def Core.ask (k : Core) (w : Nat) : Core := { k with asks := (k.asking.filter fun v => v != w) ++ [w] }

/-- An allotment by its number. -/
def Core.allotOf (k : Core) (id : Nat) : Option Allot := k.allots.find? fun a => a.id == id && !a.freed

/-- A core with an allotment changed. -/
def Core.mapAllot (k : Core) (id : Nat) (f : Allot → Allot) : Core :=
  { k with allots := k.allots.map fun a => if a.id = id then f a else a }

end Sys2Proof.Machine
end

