-- ==== Sys2Proof/Machine/Sram.lean ====
section
/-! DEFINITION. Core SRAM words (R212 to R226): scratchpad and staging accesses, rings, WAITC, BANKSET and BANKQ. -/

namespace Sys2Proof.Machine

open Sys2Proof

/-! ### Windows (R212) -/

/-- The scratchpad allocation of a warp's workgroup. -/
def State.allocOf (s : State) (c : Cur) (x : Warp) : Option Alloc :=
  match x.wg with
  | some i => (s.core c.core).allocs.find? fun a => a.launch == x.launch && a.wg == i
  | none => none

/-- The window and the place in SRAM of a lane's access (R212): whether it is the staging window; none outside
both (DEDUCED, log entry 53). -/
def State.window (s : State) (c : Cur) (x : Warp) (ea size : Nat) : Option (Bool × Nat) :=
  if ea < 0x40000000 then
    match s.allocOf c x with
    | some a => if ea + size ≤ a.len then (placeIn a.macros (a.base + ea)).map fun z => (false, z) else none
    | none => none
  else
    let off := ea - 0x40000000
    let t := x.task
    if t.stageOff ≤ off ∧ off + size ≤ t.stageOff + t.stageBytes then ((s.core c.core).place 2 off).map fun z => (true, z)
    else none

/-- The address of a lane in the scratchpad address space (R212). -/
def Warp.laneEa (x : Warp) (p : Split) (f : FmtM) (l : Nat) : Nat :=
  ((x.uval p (16 + f.base.toNat)).toNat + (x.val p (.int 32) f.a.toNat l).toNat) % 2 ^ 32

/-- A cause with the lanes that satisfy a test, and a number of the lowest of them; none where no lane does. -/
def lanesCause (cause w : Nat) (lanes : List Nat) (bad : Nat → Bool) (info : Nat → Nat) : Option Trap :=
  match lanes.find? bad with
  | some l => some (Trap.lanes cause (info l) (maskOf w fun j => lanes.contains j && bad j))
  | none => none

/-- The accesses of the active lanes of a scratchpad word and whether they fall in the staging window, or the cause of R227;
of lanes in different windows, those in another window than the lowest are the offending ones. -/
def State.sramAccs (s : State) (c : Cur) (x : Warp) (p : Split) (f : FmtM) (size : Nat) (act : LaneMask) :
    Except Trap (Bool × List Acc) :=
  let lanes := lanesOf x.width act
  let ea (l : Nat) : Nat := x.laneEa p f l
  let at_ (l : Nat) : Option (Bool × Nat) := s.window c x (ea l) size
  let stage := ((lanes.findSome? at_).map (·.1)).getD false
  match lanesCause 0x1C2 x.width lanes (fun l => ea l % size != 0) ea with
  | some t => .error t
  | none =>
    match lanesCause 0x1C1 x.width lanes (fun l => (at_ l).map (·.1) != some stage) ea with
    | some t => .error t
    | none => .ok (stage, lanes.filterMap fun l => (at_ l).map fun z =>
        { lane := l, va := ea l, pa := z.2, size := size, key := noKey, type := 0, hs := false, data := [], opnd := 0,
          cmp := 0, got := none })

/-- A lane word that accesses the scratchpad address space. -/
def sramWord (i : Instr) (f : FmtM) (s : State) (size : Nat) (codes : List Nat) (kind : OpKind)
    (accs : Warp → Split → List Acc → List Acc) (dest : Option (Nat × Nat)) : Out :=
  issue i s fun s c x p =>
    let act := x.active p f.g f.neg
    match x.readCause p (memSources f act codes) with
    | some t => .error t
    | none =>
      let expect (x : Warp) (id : Nat) : Warp := match dest with
        | some (d, e) => x.expectLanes p id d e act
        | none => x
      if act == 0 then .ok (s.putWarp c ((expect x 0).advance c.b))
      else
        match s.sramAccs c x p f size act with
        | .error t => .error t
        | .ok (stage, l) =>
          let path := if stage then 2 else 0
          if x.full path then .ok s
          else
            let o := s.newOp i path kind 1 false false (accs x p l)
            .ok (s.issueOp c ((expect x o.id).advance c.b) o)

/-- The source codes of E words from code b upward. -/
def runOf (b f : Nat) : List Nat := (List.range (wordsOf f)).map fun i => b + i

/-- LDS (R221). -/
def execLds (f : FmtM) (s : State) : Out :=
  sramWord (.lds f) f s (sizeOf f.f.toNat) [] (.load f.f.toNat false) (fun _ _ l => l)
    (some (f.b.toNat, wordsOf f.f.toNat))

/-- STS (R221). -/
def execSts (f : FmtM) (s : State) : Out :=
  sramWord (.sts f) f s (sizeOf f.f.toNat) (runOf f.b.toNat f.f.toNat) .store
    (fun x p l => storeAccs (fun j => x.laneData p f.b.toNat f.f.toNat j) l) none

/-- The sources of an atomic of function f: its operand, and q0 for .cas (R222, R249). -/
def atomCodes (b f : Nat) : List Nat := if f = 7 then [b, 0] else [b]

/-- ATS (R222). -/
def execAts (f : FmtM) (s : State) : Out :=
  sramWord (.ats f) f s 4 (atomCodes f.b.toNat f.f.toNat) (.atom f.f.toNat false) (fun x p l => atomAccs x p f.b.toNat l)
    (some (0, 1))

/-! ### Rings (R217, R218, R223) -/

/-- Whether a ring exists (R209, R217). -/
def Core.ringExists (k : Core) (n : Nat) : Bool := decide (n < 32) && k.mode (n / 8) == 3 && !(n / 8 == 0 && decide (5 < n))

/-- The words of a ring. -/
def Core.ring (k : Core) (n : Nat) : List Cell32 := (get k.rings n).getD []

/-- A workgroup that has used a ring (R219). -/
def Core.usesRings (k : Core) (x : Warp) : Core :=
  { k with wgs := k.wgs.map fun g => if g.launch = x.launch ∧ some g.index = x.wg then { g with rings := true } else g }

/-- Whether an operation goes to a program ring. -/
def Op.ring (o : Op) : Option (Nat × Bool) :=
  match o.kind with
  | .push r _ => some (r, true)
  | .pop r _ => some (r, false)
  | .peek r _ => some (r, false)
  | _ => none

/-- Whether a warp has 32 ring operations that are not performed, those withdrawn among them, so that no further one issues
(R348). -/
def Warp.ringsFull (x : Warp) : Bool := decide (32 ≤ (x.ops.filter fun o => o.ring.isSome && !o.done).length + x.withdrawn.length)

/-- A ring word: its ring, its sources, and the operation that goes to the ring. -/
def ringWord (i : Instr) (f : FmtM) (s : State) (codes : List Nat) (kind : Nat → Nat → OpKind) (peek : Bool)
    (accs : Warp → Split → List Nat → List Acc) (dest : Option Nat) : Out :=
  issue i s fun s c x p =>
    if x.full 0 || x.ringsFull then .ok s
    else
      let act := x.active p f.g f.neg
      let e := wordsOf f.f.toNat
      match x.readCause p (memSources f act codes) with
      | some t => .error t
      | none =>
        let expect (x : Warp) (id : Nat) : Warp := match dest with
          | some d => x.expectLanes p id d e act
          | none => x
        let lanes := lanesOf x.width act
        let off (l : Nat) : Nat := (x.val p (.int 32) f.a.toNat l).toNat
        let n := (x.uval p (16 + f.base.toNat)).toNat
        if act == 0 then .ok ((s.setCore c.core ((s.core c.core).usesRings x)).putWarp c ((expect x 0).advance c.b))
        else if 32 ≤ n || !(s.core c.core).ringExists n then .error (Trap.of 0x1C4 (n % 2 ^ 32))
        else
          match if peek then lanesCause 0x1C1 x.width lanes (fun l => decide (4096 < (off l + 1) * e)) off else none with
          | some t => .error t
          | none =>
            let o := s.newOp i 0 (kind n e) 1 false false (accs x p lanes)
            let s := s.setCore c.core ((s.core c.core).usesRings x)
            .ok (s.issueOp c ((expect x o.id).advance c.b) o)

/-- A lane's part in a ring operation: an offset, or the words to push. -/
def ringAcc (lane off : Nat) (data : List Byte) : Acc :=
  { lane := lane, va := off, pa := 0, size := 0, key := noKey, type := 0, hs := false, data := indexed data, opnd := 0,
    cmp := 0, got := none }

/-- FPUSH (R223). -/
def execFpush (f : FmtM) (s : State) : Out :=
  ringWord (.fpush f) f s (runOf f.b.toNat f.f.toNat) OpKind.push false
    (fun x p l => l.map fun j => ringAcc j 0 (x.laneData p f.b.toNat f.f.toNat j)) none

/-- FPOP (R223). -/
def execFpop (f : FmtM) (s : State) : Out :=
  ringWord (.fpop f) f s [] OpKind.pop false (fun _ _ l => l.map fun j => ringAcc j 0 []) (some f.b.toNat)

/-- FPEEK (R223). -/
def execFpeek (f : FmtM) (s : State) : Out :=
  ringWord (.fpeek f) f s [] OpKind.peek true
    (fun x p l => l.map fun j => ringAcc j (x.val p (.int 32) f.a.toNat j).toNat []) (some f.b.toNat)

/-! ### WAITC (R224) -/

/-- WAITC (R224): the threshold is read in the lowest lane of the split's mask. -/
def execWaitc (f : FmtL) (s : State) : Out :=
  issue (.waitc f) s fun s c x p =>
    let l := (lowestLane x.width fun l => p.mask.getLsbD l).getD 0
    match x.readCause p (laneSources (maskOf x.width fun j => j == l && p.mask.getLsbD j) [f.a.toNat]) with
    | some t => .error t
    | none =>
      if x.counter f.imm.toNat ≤ (x.val p (.int 32) f.a.toNat l).toNat then .ok (s.released_ c false)
      else .ok (s.blockAt c x p (.waitc f) (.waitc f.imm.toNat (x.val p (.int 32) f.a.toNat l).toNat))

/-! ### BANKSET and BANKQ (R225, R226) -/

/-- BANKSET (R225): it waits for the queue controller, which gives its result. -/
def execBankset (f : Fmt3) (s : State) : Out :=
  onCompute (.bankset f) s 0x76 fun s c x p =>
    let g := x.cguard f.g f.neg
    match x.readCause p (uniSources g [f.a.toNat, f.b.toNat]) with
    | some t => .error t
    | none =>
      let a := (x.uval p f.a.toNat).toNat
      let b := (x.uval p f.b.toNat).toNat
      if x.full 0 then .ok s
      else if !g then .ok (s.putWarp c ((x.expectUni 0 f.d.toNat 1 false).advance c.b))
      else if a / 4 != 0 || b / 4 != 0 then .error (Trap.of 0x1C3 (a % 2 ^ 32))
      else
        let o := s.newOp (.bankset f) 0 (.bankset a b) 1 false false []
        .ok (s.issueOp c ((x.expectUni o.id f.d.toNat 1 true).advance c.b) o)

/-- Whether an allocation lies in a macro. -/
def Core.allocIn (k : Core) (m : Nat) : Bool :=
  k.allocs.any fun a => (List.range (a.len / 128 + 1)).any fun i =>
    decide (128 * i < a.len) && ((placeIn a.macros (a.base + 128 * i)).map (· / 131072)) == some m

/-- 128-byte units of a macro held by allocations. -/
def Core.allocUnits (k : Core) (m : Nat) : Nat :=
  (k.allocs.map fun a => ((List.range ((a.len + 127) / 128)).filter fun i =>
    ((placeIn a.macros (a.base + 128 * i)).map (· / 131072)) == some m).length).sum

/-- 128-byte units of a macro held by allotments (R216). -/
def Core.stageUnits (k : Core) (m : Nat) : Nat :=
  (k.allots.map fun a => ((List.range (a.len / 128)).filter fun i =>
    (k.place 2 (a.off + 128 * i)).map (· / 131072) == some m).length).sum

/-- 128-byte units of a macro held by ring words: 32 words a unit, each ring on its own (R217). -/
def Core.ringUnits (k : Core) (m : Nat) : Nat :=
  ((List.range 8).map fun i => ((k.ring (8 * m + i)).length + 31) / 32).sum

/-- BANKQ's result (Tables 10 to 12 of R226). -/
def Core.bankq (k : Core) (a : Nat) : DWord :=
  if a < 4 then
    let mode := k.mode a
    let used := if mode = 1 then k.allocUnits a else if mode = 2 then k.stageUnits a else if mode = 3 then k.ringUnits a else 0
    BitVec.ofNat 64 (used * 2 ^ 24 + mode)
  else if a = 0x10 then BitVec.ofNat 64 (k.ringFree / 128 * 2 ^ 32 + k.head / 128 * 2 ^ 16 + k.tail / 128)
  else if 0x20 ≤ a && a < 0x40 then
    BitVec.ofNat 64 (bit (k.ringExists (a - 0x20)) * 2 ^ 13 + (k.ring (a - 0x20)).length)
  else 0

/-- The fields of BANKQ's result for a selector (Tables 10 to 12 of R226). -/
def bankqMask (a : Nat) : DWord :=
  if a < 4 then 0xFFFF000007 else if a = 0x10 then 0xFFFFFFFFFFFF else if 0x20 ≤ a && a < 0x40 then 0x3FFF else 0

/-- BANKQ (R226). -/
def execBankq (f : Fmt3) (s : State) : Out :=
  issue (.bankq f) s fun s c x p =>
    let g := x.cguard f.g f.neg
    match x.readCause p (uniSources g [f.a.toNat]) with
    | some t => .error t
    | none =>
      let a := (x.uval p f.a.toNat).toNat % 256
      .ok (s.putWarp c (x.uniResult c.b p f.nw f.d.toNat g (s.snapshot c.core 0x77 (bankqMask a) ((s.core c.core).bankq a))))

/-- BANKSET's result (R225). -/
def Core.banksetCode (k : Core) (launch m mode : Nat) : Nat :=
  let old := k.mode m
  if k.slots.any fun t => t.2.launch != launch then 1
  else if old = mode then 0
  else if old = 1 && k.allocIn m then 2
  else if (old = 2 || mode = 2) && !k.allots.isEmpty then 3
  else if old = 3 && ((List.range 8).any fun i => !(k.ring (8 * m + i)).isEmpty ||
      k.ringWait.any fun w => w.1 == 8 * m + i) then 4
  else 0

/-- A core whose macro has taken a mode (R225). -/
def Core.setMode (k : Core) (m mode : Nat) : Core :=
  let zero := { k with modes := k.modes.set m mode,
                       sram := if mode = 1 then k.sram.filter fun e => e.1 / 131072 != m || decide (e.1 < macroBase m)
                               else k.sram,
                       badWords := if mode = 1 then k.badWords.filter fun w => 4 * w / 131072 != m || decide (4 * w < macroBase m)
                                   else k.badWords,
                       rings := if mode = 3 then k.rings.filter fun e => e.1 / 8 != m else k.rings }
  if k.mode m = 2 ∨ mode = 2 then { zero with head := 0, tail := 0 } else zero

/-- The state after the queue controller has taken a BANKSET, and its result (R225, R241): lines of a macro that leaves the
L1 go out of the cluster's L1. -/
def State.doBankset (s : State) (c : Nat) (launch m mode : Nat) : State × Nat :=
  let k := s.core c
  let code := k.banksetCode launch m mode
  if code ≠ 0 || k.mode m = mode then (s, code)
  else
    let s := s.setCore c (k.setMode m mode)
    if k.mode m = 0 || mode = 0 then
      let d := s.die (coreDie c)
      (s.setDie (coreDie c) { d with l1 := d.l1.filter fun e => e.1 != coreCluster c }, 0)
    else (s, 0)

end Sys2Proof.Machine
end

