-- ==== Sys2Proof/Machine/Staging.lean ====
section
/-! DEFINITION. Closures, tiles and the ring space of a task (R179 to R182, R190, R191, R216). -/

namespace Sys2Proof.Machine

open Sys2Proof

/-- Word w of a closure. -/
def word (l : List Word) (w : Nat) : Nat := (l.getD w 0).toNat

/-- NTILES of a closure (Table 2 of R180). -/
def tileCount (l : List Word) : Nat := word l 1 % 8

/-- NOSTEAL of a closure (R180). -/
def closureNoSteal (l : List Word) : Bool := flag 8 (word l 1)

/-- NOXSTEAL of a closure (R180). -/
def closureNoXSteal (l : List Word) : Bool := flag 9 (word l 1)

/-- Bytes of an element of a tile (R181). -/
def elemSize (fmt : Nat) : Nat := formatBits fmt / 8

/-- The descriptor of tile i (R179). -/
def tileDesc (l : List Word) (i : Nat) : Nat := word l (2 + i)

/-- The address of tile i (R179). -/
def tileAddr (l : List Word) (i : Nat) : Nat := (word l (6 + 2 * i) + word l (7 + 2 * i) * 2 ^ 32) % 2 ^ 57

/-- Bytes of a tile, densely packed (R181). -/
def tileSize (l : List Word) (i : Nat) : Nat :=
  let d := tileDesc l i
  bitsOf 11 10 d * bitsOf 11 21 d * elemSize (bitsOf 4 6 d)

/-- TB(i), the staged size of a tile (R181). -/
def tileStaged (l : List Word) (i : Nat) : Nat := (tileSize l i + 127) / 128 * 128

/-- TOFF(i) (R190). -/
def tileOff (l : List Word) (i : Nat) : Nat := (List.range i).foldl (fun a j => a + tileStaged l j) 0

/-- TOFF(NTILES), the bytes staged for a closure. -/
def stagedTotal (l : List Word) : Nat := tileOff l (tileCount l)

/-- Whether tile i is loaded before the task runs (R181). -/
def tileIn (l : List Word) (i : Nat) : Bool := tileDesc l i % 2 == 1

/-- Whether tile i is written back (R193). -/
def tileOut (l : List Word) (i : Nat) : Bool := tileDesc l i / 2 % 2 == 1

/-- The tiles of a closure that satisfy a test. -/
def tilesWhere (l : List Word) (f : List Word → Nat → Bool) : List Nat := (List.range (tileCount l)).filter (f l)

/-- Whether a descriptor and its address are valid (R181). -/
def tileValid (l : List Word) (i : Nat) : Bool :=
  let d := tileDesc l i
  let fmt := bitsOf 4 6 d
  let n := elemSize fmt
  (fmt ≤ 4 || (8 ≤ fmt && fmt ≤ 12)) && bitsOf 4 2 d == 0 && d % 4 != 0 &&
    (1 ≤ bitsOf 11 10 d && bitsOf 11 10 d ≤ 1024) && (1 ≤ bitsOf 11 21 d && bitsOf 11 21 d ≤ 1024) &&
    tileAddr l i % n == 0

/-- The first closure word with a cause 0x203 (R181, R205): an invalid tile, or, where every tile is valid, the tile with which the
staged total passes 128 KiB (DESIGN CHOICE, log entry 84). -/
def tileCause (l : List Word) : Option Nat :=
  match (List.range (tileCount l)).find? fun i => !tileValid l i with
  | some i => some (2 + i)
  | none =>
    match (List.range (tileCount l)).find? fun i => decide (131072 < tileOff l (i + 1)) with
    | some i => some (2 + i)
    | none => none

/-- The state of an allotment of ring space for a closure: none where it does not fit now. Output-only space reads 0
(R190, R216). -/
def State.allotSpace (s : State) (c : Nat) (words : List Word) (launch : Nat) : Option (State × Nat) :=
  let k := s.core c
  match k.allotAt (stagedTotal words) with
  | none => none
  | some (off, skipped) =>
    let id := s.serial
    let k := k.allot id off (stagedTotal words) skipped words launch (tilesWhere words tileIn)
    let k := k.viewWrite 2 off (List.replicate (stagedTotal words) 0)
    some (s.fresh.setCore c k, id)

/-- The state after a slot's request for ring space has been tried: it reaches the queue controller if it is new, and is served if no
request before it waits (R216). -/
def State.askSpace (s : State) (c w : Nat) (new : Bool) (words : List Word) (launch : Nat) : State × Option Nat :=
  let k := if new then (s.core c).ask w else s.core c
  let s := s.setCore c k
  if (k.asks.takeWhile fun v => v != w).any fun v => k.asking.contains v then (s, none)
  else
    match s.allotSpace c words launch with
    | some (t, id) => (t.setCore c { t.core c with asks := (t.core c).asks.filter fun v => v != w }, some id)
    | none => (s, none)

/-- Whether every input tile of an allotment stands in the ring (R190). -/
def Core.staged (k : Core) (id : Nat) : Bool := ((k.allotOf id).map fun a => a.tiles.isEmpty).getD true

/-- The failure of an allotment's loader or storer, if any: its cause and the faulting page. -/
def Core.allotFault (k : Core) (id : Nat) : Option (Nat × Nat) := (k.allotOf id).bind (·.fault)

/-- The offset of an allotment in the ring. -/
def Core.allotOff (k : Core) (id : Nat) : Nat := ((k.allotOf id).map (·.off)).getD 0

/-! ### Starting a task on a slot (R182) -/

/-- A lane at the start of a task: the closure words in its queue (R182). -/
def Lane.task (width : Nat) (words : List Word) (l : Nat) : Lane :=
  let w (i : Nat) : Cell32 := Cell32.of (words.getD i 0)
  let a := Lane.start l
  if width = 16 then { a with q := w (16 + l) :: w l :: a.q.drop 2 }
  else if l < 32 then { a with q := w l :: a.q.drop 1 }
  else a

/-- FPC at its reset value: RM is FPCRM of the header (R154). -/
def Header.fpc (h : Header) : DWord := BitVec.ofNat 64 h.fpcrm

/-- The entry of a task of a launch (R65). -/
def Launch.taskEntry (e : Launch) (i : Nat) : VA := BitVec.ofInt 57 (e.kernel + (e.header.tasks.getD i (0, 0)).1)

/-- SPLITSP as placement sets it for a slot's split area (R80). -/
def areaSp (area : Nat) : DWord := BitVec.ofNat 64 (area % 2 ^ 57 / 2 ^ 14 * 2 ^ 14)

/-- A warp at the start of a task with a closure, on a slot with a split area. -/
def Warp.startTask (e : Launch) (launch windex : Nat) (area : Nat) (t : Task) : Warp :=
  let h := e.header
  let w := Warp.start launch none windex h.width h.nv h.ns (e.taskEntry (word t.words 0)) (areaSp area) h.fpc
  { w with lanes := (List.range h.width).map (Lane.task h.width t.words), task := t }

/-- The running task of a closure with its ring space (R194, R204). -/
def Task.ofClosure (kind : TaskKind) (stolen xstolen : Bool) (handle : DWord) (allot : Option Nat) (off : Nat)
    (words : List Word) (due stamped : List Nat) : Task :=
  { kind := kind, index := BitVec.ofNat 12 (word words 0), stolen := stolen, xstolen := xstolen, handle := handle,
    allot := allot, stageOff := off, stageBytes := stagedTotal words, words := words, result := 0, due := due,
    stamped := stamped }

/-! ### Handles (R183) -/

/-- The handle of an entry (Table 4 of R183). -/
def handleOf (core entry gen : Nat) : DWord := BitVec.ofNat 64 (core * 2 ^ 23 + entry * 2 ^ 12 + gen)

/-- The inline handle (R183). -/
def inlineHandle : DWord := BitVec.ofNat 64 (2 ^ 32)

/-- CORE of a handle. -/
def handleCore (h : DWord) : Nat := bitsOf 9 23 h.toNat
/-- SLOT of a handle. -/
def handleEntry (h : DWord) : Nat := bitsOf 11 12 h.toNat
/-- GEN of a handle. -/
def handleGen (h : DWord) : Nat := bitsOf 12 0 h.toNat

/-- A closure's handle. -/
def Closure.handle (q : Closure) : DWord := handleOf q.core q.entry q.gen

end Sys2Proof.Machine
end

