-- ==== Sys2Proof/Machine/TaskEnd.lean ====
section
/-! DEFINITION. How a warp's running code ends (R93, R196, R201): inline frames, the state of futures, and the slot. -/

namespace Sys2Proof.Machine

open Sys2Proof

/-! ### The stalled array (R323) -/

/-- An array whose stalled operation is abandoned from the recorded position (R323). -/
def Matrix.abandon (m : Matrix) : Matrix :=
  { m with queue := m.queue.drop 1, stall := { m.stall with stalled := false, lost := true } }

/-- A core after the warp of a slot has ended or stopped: a stall that it owned is abandoned, and it is owed no cause (R323). -/
def Core.ownerGone (k : Core) (w : Nat) : Core :=
  if k.matrix.stall.owner != w then k
  else
    let m := if k.matrix.stall.stalled then k.matrix.abandon else k.matrix
    { k with matrix := { m with stall := { m.stall with taken := true } } }

/-! ### Inline frames (R196) -/

/-- The frame that an inline call pushes: `b` is the calling split, and `nw`, `d` and `entry` are a JOIN's (R196). -/
def Warp.frame (x : Warp) (b nw : Bool) (d : Nat) (entry : Option (Nat × Nat)) : InlineFrame :=
  { lanes := x.lanes, k := x.k, s := x.s, c := x.c, a := x.a, b := x.b, loops := x.loops, loopBuf := x.loopBuf,
    gang := x.gang, fpc := x.fpc, frames := x.frames, away := x.away, armed := x.armed, splitSp := x.splitSp, task := x.task, inB := b,
    nw := nw, d := d, entry := entry }

/-- A warp that starts an inline task (R182, R196): the slot keeps its memberships, workgroup, batches and counters. -/
def Warp.startInline (x : Warp) (e : Launch) (area : Nat) (f : InlineFrame) (t : Task) : Warp :=
  let n := Warp.startTask e x.launch x.windex area t
  { x with lanes := n.lanes, k := n.k, s := n.s, c := 0, a := n.a, b := none, frames := [], away := [], spills := x.spillBase,
           loops := n.loops, loopBuf := [], armed := [], gang := 0, splitSp := n.splitSp, fpc := n.fpc, task := t,
           inline := f :: x.inline, staging := none, asks := false, dirty := x.dirty || x.frozen.isSome }

/-- A warp back on its caller's frame. A handler that the inline task was in is gone. -/
def Warp.popInline (x : Warp) (f : InlineFrame) (r : List InlineFrame) : Warp :=
  let z := x.frozen.bind fun z => if r.length < z.depth then none else some z
  { x with lanes := f.lanes, k := f.k, s := f.s, c := f.c, a := f.a, b := f.b, loops := f.loops, loopBuf := f.loopBuf,
           gang := f.gang, fpc := f.fpc, frames := f.frames, away := f.away, armed := f.armed, splitSp := f.splitSp, task := f.task,
           inline := r, frozen := z, spills := (z.map (·.spillBase)).getD 0, dirty := x.dirty || z.isSome }

/-- A warp whose SPAWN has completed: the value and the handle pushed (R197). -/
def Warp.pushTwo (x : Warp) (b g : Bool) (v h : DWord) : Warp :=
  match x.split b with
  | none => x
  | some p =>
    let y := x.writeUni b p false 0 g v
    match y.split b with
    | none => y
    | some q => y.writeUni b q false 0 g h

/-- A warp whose JOIN has completed: the value written back, and its split's fetch buffer emptied, an acquire (R195, R198, R278). -/
def Warp.joined (x : Warp) (b nw : Bool) (d : Nat) (v : DWord) : Warp :=
  match x.split b with
  | none => x
  | some p => (x.writeUni b { p.unbuffer with wait := .none } nw d true v).advance b

/-- A future entry made free (R184). -/
def Future.drop (f : Future) : Future := { f with st := .free }

/-- The tenant of a launch: its partition (R177, R178). -/
def State.tenantOf (s : State) (l : Nat) : Nat := ((s.launch l).map (·.part)).getD 0

/-- The state with a future entry of a launch's tenant changed. -/
def State.updFor (s : State) (l c e : Nat) (f : Future → Future) : State := s.updFut (s.tenantOf l) c e f

/-- The state in which an inline task has ended with a value: the frame is popped and the call completes (R196); a JOIN whose
task failed in write-back repeats, and finds its entry FAILED (R193, R198; DEDUCED, log entry 45). -/
def State.finishInline (s : State) (c : Cur) (x : Warp) (v : DWord) (failed : Option (Nat × Nat)) : State :=
  match x.inline with
  | [] => s
  | f :: r =>
    let y := x.popInline f r
    match f.entry with
    | none => s.putWarp c ((y.pushTwo f.inB true v inlineHandle).advance f.inB)
    | some (core, e) =>
      match failed with
      | some z =>
        (s.updFor x.launch core e fun u => { u with st := .failed, value := 0, cause := 0x208, info := z.1, page := z.2 }).putWarp c y
      | none => (s.updFor x.launch core e Future.drop).putWarp c (y.joined f.inB f.nw f.d v)

/-- The entry of the task that a warp runs from a deque. -/
def Task.entry (t : Task) : Option (Nat × Nat) :=
  if t.kind == .deque then some (handleCore t.handle, handleEntry t.handle) else none

/-- A slot with a use. -/
def State.setUse (s : State) (c w : Nat) (u : SlotUse) : State :=
  match s.slot c w with
  | some t => s.setSlot c w { t with use := u }
  | none => s

/-- A warp without splits, frames or spilled splits. -/
def Warp.emptied (x : Warp) : Warp := { x with a := none, b := none, frames := [], away := [], spills := 0 }

/-- The state in which a warp's running code has ended with a value (R93, R196, R201). -/
def State.endCode (s : State) (c : Cur) (x : Warp) (v : DWord) : State :=
  let y := { x.emptied with task := { x.task with result := v } }
  match x.inline with
  | f :: _ =>
    if (tilesWhere x.task.words tileOut).isEmpty then
      let k := s.core c.core
      let s := match x.task.allot with
        | some a => s.setCore c.core (k.freeAllot a)
        | none => s
      s.finishInline c x v none
    else
      let s := (s.putWarp c y).setUse c.core c.slot .draining
      match f.entry with
      | some (core, e) => s.updFor x.launch core e fun u => { u with st := .draining }
      | none => s
  | [] =>
    let k := s.core c.core
    let s := s.setCore c.core ((k.leaveGroups c.slot).ownerGone c.slot)
    let s := s.putWarp c { y with status := .ended, frozen := none }
    match x.task.entry with
    | some (core, e) =>
      (s.updFor x.launch core e fun u => { u with st := .draining }).setUse c.core c.slot .draining
    | none => s

/-! ### The slot of an ended warp (R22, R93) -/

/-- Whether every operation of a warp's batches is complete: no operation of the array's queue names its slot (R319, R320). -/
def Core.batchesDone (k : Core) (w : Nat) : Bool := k.matrix.queue.all fun o => !o.slots.contains w

/-- Whether a slot of a workgroup is still held by a warp of it, on the core or parked there. -/
def State.wgHeld (s : State) (c l i : Nat) : Bool :=
  ((s.core c).slots.any fun t => t.2.launch == l && t.2.wg == some i) ||
    s.parked.any fun e => e.2.core == c && e.2.launch == l && e.2.wg == some i

/-- The state after the last warp of a workgroup has left: its allocation, its per-workgroup group entries and its place are
freed, and it has exited (R20, R88, R211; DEDUCED, log entry 66). -/
def State.workgroupExit (s : State) (c l i : Nat) : State :=
  let k := s.core c
  let s := s.setCore c { k with allocs := k.allocs.filter fun a => !(a.launch == l && a.wg == i),
                                groups := k.groups.filter fun e => !(e.launch == l && e.wg == some i),
                                wgs := k.wgs.filter fun e => !(e.launch == l && e.index == i) }
  { s with launches := mapAt s.launches l fun e => { e with exited := e.exited + 1 } }

/-- Whether an operation in flight is a ring operation that is not performed. -/
def Op.withdrawable (o : Op) : Bool := o.ring.isSome && !o.done

/-- A core whose rings no longer hold operations of a warp. -/
def Core.withdraw (k : Core) (ids : List Nat) : Core := { k with ringWait := k.ringWait.filter fun e => !ids.contains e.2.2.2 }

/-- Whether nothing in flight keeps a slot: its warp's counters are 0, but for ring operations not performed of one that stopped
(R93, R370). -/
def Warp.quiet (x : Warp) : Bool := if x.status == .failed then x.ops.all Op.withdrawable else x.ops.isEmpty

/-- The state in which a launch owes no error record. -/
def State.recorded (s : State) (l : Nat) : State := { s with launches := mapAt s.launches l fun e => { e with errAt := none } }

/-- The state after the error record of a failed launch has been written to the context area of the warp that stopped (R375), five
words of 8 bytes; nothing while it must wait. -/
def State.writeRecord (s : State) (c w : Nat) (t : Slot) (x : Warp) : Option State :=
  match s.launch t.launch with
  | none => some s
  | some e =>
    if e.errAt != some (c, w) then some s
    else
      let u : Cur := { core := c, slot := w, b := false }
      match s.writeVa u x ((t.area + 0x10000) % 2 ^ 57) (e.record.flatMap fun v => toBytes 8 v.toNat) with
      | .wait => none
      | .cause v _ => some ((s.keepLog v).recorded t.launch)
      | .done v _ => some (v.recorded t.launch)

/-- The state in which a slot of a warp that ended or stopped is a free slot of its launch. -/
def State.releaseSlot (s : State) (c w : Nat) (t : Slot) (x : Warp) : State :=
  let k := s.core c
  let s := if x.status == .failed then
      s.setCore c (((k.leaveGroups w).ownerGone w).withdraw (x.ops.map (·.id))) else s
  let s := match (if x.status == .failed then x.task.allot else none) with
    | some a => s.setCore c ((s.core c).freeAllot a)
    | none => s
  let s := s.setSlot c w { t with warp := none, use := .free, wg := none, task := none }
  let s := match t.wg with
    | some i => s.setCore c ((s.core c).leaveWorkgroup t.launch i w)
    | none => s
  let s := { s with launches := mapAt s.launches t.launch fun e => { e with stamped := joinClocks e.stamped (s.releaseClock c x) } }
  match t.wg with
  | some i => if s.wgHeld c t.launch i then s else s.workgroupExit c t.launch i
  | none => s

/-- SLOT_RELEASE (R93, R320): the slot of a warp that ended or stopped is released to its launch once its counters are 0 and
its batches complete. -/
def execSlotRelease (c w : Nat) (s : State) : Out :=
  match s.slot c w with
  | none => .next s
  | some t =>
    match t.warp with
    | none => .next s
    | some x =>
      if !(x.status == .ended || x.status == .failed) || !x.quiet || !(s.core c).batchesDone w ||
          (t.use == .draining && x.status == .ended) || isFw c then .next s
      else
        match s.writeRecord c w t x with
        | none => .next s
        | some u => .next (u.releaseSlot c w t ((u.warp c w).getD x))

end Sys2Proof.Machine
end

