-- ==== Sys2Proof/Machine/Splits.lean ====
section
/-! DEFINITION. Splits, reconvergence frames and EXIT (R77 to R82, R93). -/

namespace Sys2Proof.Machine

open Sys2Proof

/-- The highest active loop level, or 0xFFFFFFFF (Table 11 of R96). -/
def topLevel (ls : List Loop) : Nat :=
  match (List.range 3).reverse.find? fun j => (ls.getD j Loop.off).count != 0 with
  | some j => j
  | none => 0xFFFFFFFF

/-- Whether a loop level is active. -/
def loopActive (ls : List Loop) : Bool := ls.any fun e => e.count != 0

/-! ### BRX (R78) -/

/-- The target of a lane of BRX: the header's address plus a signed offset (R64, R78). -/
def brxTarget (header : Nat) (v : Word) : VA := BitVec.ofInt 57 (header + v.toInt)

/-- The lanes of a mask grouped by target, in the order of their lowest lanes. -/
def groupLanes (w : Nat) (act : LaneMask) (target : Nat → VA) : List (VA × LaneMask) :=
  (List.range w).foldl (fun r l =>
    if act.getLsbD l then
      if r.any fun e => e.1 == target l then
        r.map fun e => if e.1 = target l then (e.1, e.2 ||| slotBit l) else e
      else r ++ [(target l, slotBit l)]
    else r) []

/-- The lowest free frame number (R78). -/
def Warp.freeFrame (x : Warp) : Option Nat := (List.range 255).find? fun i => !x.frameUsed i

/-- Splits pushed on the spill stack, the first first. -/
def State.pushSplits (c : Cur) : State → Warp → List Split → Sync Warp
  | s, x, [] => .done s x
  | s, x, p :: r => (s.pushSplit c x p).bind fun t y => t.pushSplits c y r

/-- A split of a BRX group. -/
def groupSplit (frame : Nat) (e : VA × LaneMask) : Split :=
  { Split.start e.1 e.2 with frame := BitVec.ofNat 8 frame }

/-- A warp whose split has divided by BRX: the issuing slot takes the first group, a taken transfer, and an empty other slot the
second (R78, R85). -/
def Warp.divide (x : Warp) (b : Bool) (p : Split) (rcv : VA) (act : LaneMask) (f : Nat) (gs : List (VA × LaneMask)) : Warp :=
  let frame : Frame := { rcvpc := rcv, expect := p.mask, arrived := p.mask &&& ~~~act, parent := p.frame }
  let x := { x with frames := put x.frames f frame }
  match gs with
  | [] => x
  | g1 :: r =>
    let x := (x.setSplit b (some (groupSplit f g1))).jump b g1.1
    match r, x.split (!b) with
    | g2 :: _, none => x.setSplit (!b) (some (groupSplit f g2))
    | _, _ => x

/-- BRX (R78); with no active lane it goes on at its RCV, a taken transfer as one to a target is (DESIGN CHOICE, log entry 78). -/
def execBrx (f : FmtL) (s : State) : Out :=
  issue (.brx f) s fun s c x p =>
    let act := x.active p f.g f.neg
    match x.readCause p (laneSources act [f.a.toNat]) with
    | some t => .error t
    | none =>
      let header := ((s.launch x.launch).map (·.kernel)).getD 0
      let target (l : Nat) : VA := brxTarget header (x.val p (.int 32) f.a.toNat l)
      let bad := maskOf x.width fun l => act.getLsbD l && (target l).toNat % 4 != 0
      let rcv := p.pc + wordOffset 13 f.imm.toNat
      let gs := groupLanes x.width act target
      let rest := p.mask &&& ~~~act
      let onto := if (x.split (!c.b)).isNone && decide (2 ≤ gs.length) then gs.drop 2 else gs.drop 1
      if bad != 0 then .error (Trap.lanes 0x182 0 bad)
      else
        match gs with
        | [] => .ok (s.putWarp c (x.jump c.b rcv))
        | [g1] =>
          if rest == 0 then .ok (s.putWarp c (x.jump c.b g1.1))
          else
            match x.freeFrame with
            | none => .error (Trap.of 0x2C2 0)
            | some n => (s.settleArea c (x.divide c.b p rcv act n gs) false).out s c (.brx f) fun t y => t.putWarp c y
        | _ =>
          if loopActive x.loops then .error (Trap.of 0x2C9 (topLevel x.loops))
          else
            match x.freeFrame with
            | none => .error (Trap.of 0x2C2 0)
            | some n =>
              if x.spillRoom < x.spills + onto.length then .error (Trap.of 0x2C2 1)
              else
                ((s.pushSplits c x (onto.reverse.map (groupSplit n))).bind fun t y =>
                  t.settleArea c (y.divide c.b p rcv act n gs) false).out s c (.brx f) fun t y => t.putWarp c y

/-! ### RCV (R79) -/

/-- A warp whose empty slots have taken the splits at the top of its spill stack, slot A first (R79). -/
def State.refillAll (s : State) (c : Cur) (x : Warp) : Sync Warp :=
  (s.refill c x false).bind fun t y => t.refill c y true

/-- The split that a complete frame merges into (R79, R93). -/
def Frame.merged (f : Frame) : Split := { Split.start (f.rcvpc + 4) f.expect with frame := f.parent }

/-- A warp whose split has arrived at its frame's RCV: it ends, and a complete frame merges into its slot, after which the
loop-end test applies (R79, R84). -/
def Warp.meet (x : Warp) (b : Bool) (n : Nat) (f : Frame) (mask : LaneMask) : Warp :=
  let f := { f with arrived := f.arrived ||| mask }
  if f.arrived == f.expect then
    ({ x with frames := del x.frames n }.setSplit b (some { f.merged with pc := f.rcvpc })).advance b
  else { x with frames := put x.frames n f }.setSplit b none

/-- RCV (R79). -/
def execRcv (f : FmtL) (s : State) : Out :=
  issue (.rcv f) s fun s c x p =>
    let n := p.frame.toNat
    let brought := x.away.contains n
    ((s.bringFrame c x n).bind fun t y =>
      match get y.frames n with
      | none => .done t (y.advance c.b)
      | some fr =>
        if fr.rcvpc != p.pc then t.settleArea c (y.advance c.b) brought
        else (t.refillAll c (y.meet c.b n fr p.mask)).bind fun u z =>
          u.settleArea c z (brought || decide (z.spills < y.spills))).out s c (.rcv f) fun t y => t.putWarp c y

/-! ### EXIT (R93) -/

/-- The frames on a chain from which exiting lanes have left: freed when none is expected, merged when the others have all
arrived; a merged split takes an empty slot, else it is pushed (R93). No loop-end test follows such a merge (DESIGN CHOICE, log
entry 79). Fuel bounds the chain. -/
def State.leaveFrames (c : Cur) (e : LaneMask) : Nat → State → Warp → Nat → Sync Warp
  | 0, s, x, _ => .done s x
  | k + 1, s, z, n => (s.bringFrame c z n).bind fun s x =>
    match get x.frames n with
    | none => .done s x
    | some f =>
      let g := { f with expect := f.expect &&& ~~~e, arrived := f.arrived &&& ~~~e }
      let y := { x with frames := del x.frames n }
      if g.expect == 0 then State.leaveFrames c e k s y f.parent.toNat
      else if g.arrived == g.expect then
        if y.a.isNone then State.leaveFrames c e k s { y with a := some g.merged } f.parent.toNat
        else if y.b.isNone then State.leaveFrames c e k s { y with b := some g.merged } f.parent.toNat
        else (s.pushSplit c y g.merged).bind fun t z => State.leaveFrames c e k t z f.parent.toNat
      else State.leaveFrames c e k s { x with frames := put x.frames n g } f.parent.toNat

/-- Whether no split of the running code is left (R93). -/
def Warp.gone (x : Warp) : Bool := x.a.isNone && x.b.isNone && !x.spilled

/-- EXIT (R93): its lanes leave the split and its frames; a split without lanes ends, and so does a warp without splits. -/
def execExit (f : FmtL) (s : State) : Out :=
  issue (.exit f) s fun s c x p =>
    let e := x.active p f.g f.neg
    let q := { p with mask := p.mask &&& ~~~e }
    let left := (State.leaveFrames c e 255 s (x.setSplit c.b (some q)) p.frame.toNat).bind fun t y =>
      let brought := x.away.any fun n => !y.away.contains n
      if q.mask != 0 then t.settleArea c (y.advance c.b) brought
      else (t.refill c (y.setSplit c.b none) c.b).bind fun u z => u.settleArea c z (brought || decide (z.spills < y.spills))
    left.out s c (.exit f) fun t y => if q.mask == 0 && y.gone then t.endCode c y 0 else t.putWarp c y

end Sys2Proof.Machine
end

