-- ==== Sys2Proof/Machine/Flow.lean ====
section
/-! DEFINITION. Structured flow, branches, counted loops, TRIG, YIELD, NOP and GANG (R71 to R76, R83 to R86, R92, R94). -/

namespace Sys2Proof.Machine

open Sys2Proof

/-! ### Structured flow -/

/-- The nesting counters of a split's lanes changed. -/
def Warp.mapNest (x : Warp) (p : Split) (f : Nat → Nat → Nat) : Warp :=
  { x with lanes := mapPlace (fun l a =>
      if p.mask.getLsbD l then { a with n := BitVec.ofNat 8 (f l a.n.toNat) } else a) 0 x.lanes }

/-- The condition of a lane: bit 0 of the named predicate, after the negate bit (R71). -/
def Warp.cond (x : Warp) (f : FmtL) (l : Nat) : Bool := ((x.lane l).guard f.g f.neg).getLsbD 0

/-- Whether a lane of a split satisfies a test of its counter. -/
def Warp.anyNest (x : Warp) (p : Split) (f : Nat → Bool) : Bool :=
  (List.range x.width).any fun l => p.mask.getLsbD l && f (x.lane l).n.toNat

/-- 0x2C1 for the lowest lane of a split whose counter passes a limit (R72, R96). -/
def Warp.nestCause (x : Warp) (p : Split) (limit : Nat) : Option Trap :=
  (lowestLane x.width fun l => p.mask.getLsbD l && decide (limit < (x.lane l).n.toNat)).map (Trap.of 0x2C1)

/-- A warp whose split ends a word with the skip test (R72). -/
def Warp.skipTest (x : Warp) (b : Bool) (p : Split) (imm : BitVec 13) : Warp :=
  if x.anyNest p (· == 0) then x.advance b else x.jump b (p.pc + wordOffset 13 imm.toNat)

/-- IF (R74). -/
def execIf (f : FmtL) (s : State) : Out :=
  issue (.if_ f) s fun s c x p =>
    match x.nestCause p 254 with
    | some t => .error t
    | none => .ok (s.putWarp c
        ((x.mapNest p fun l n => if 0 < n then n + 1 else if x.cond f l then 0 else 1).skipTest c.b p f.imm))

/-- ELSE (R74). -/
def execElse (f : FmtL) (s : State) : Out :=
  issue (.else_ f) s fun s c x p =>
    .ok (s.putWarp c ((x.mapNest p fun _ n => if n = 0 then 1 else if n = 1 then 0 else n).skipTest c.b p f.imm))

/-- ENDIF (R74). -/
def execEndif (f : FmtL) (s : State) : Out :=
  issue (.endif f) s fun s c x p => .ok (s.putWarp c ((x.mapNest p fun _ n => n - 1).advance c.b))

/-- DO (R75). -/
def execDo (f : FmtL) (s : State) : Out :=
  issue (.do_ f) s fun s c x p =>
    match x.nestCause p 253 with
    | some t => .error t
    | none => .ok (s.putWarp c ((x.mapNest p fun _ n => if 0 < n then n + 2 else 0).skipTest c.b p f.imm))

/-- ENDDO (R75). -/
def execEnddo (f : FmtL) (s : State) : Out :=
  issue (.enddo f) s fun s c x p =>
    .ok (s.putWarp c (
      if x.anyNest p (· ≤ 1) then
        (x.mapNest p fun _ n => if n = 1 then 0 else n).jump c.b (p.pc + wordOffset 13 f.imm.toNat)
      else (x.mapNest p fun _ n => if n = 2 then 0 else n - 2).advance c.b))

/-- BRK (R75). -/
def execBrk (f : FmtL) (s : State) : Out :=
  issue (.brk f) s fun s c x p =>
    .ok (s.putWarp c
      ((x.mapNest p fun l n => if n = 0 && x.cond f l then f.imm.toNat + 2 else n).advance c.b))

/-- CONT (R75). -/
def execCont (f : FmtL) (s : State) : Out :=
  issue (.cont f) s fun s c x p =>
    .ok (s.putWarp c
      ((x.mapNest p fun l n => if n = 0 && x.cond f l then f.imm.toNat + 1 else n).advance c.b))

/-! ### Branches and calls (R83) -/

/-- A branch to an offset: taken where the guard is true. -/
def branchWord (i : Instr) (f : FmtB) (s : State) (link : Bool) : Out :=
  issue i s fun s c x p =>
    let g := x.cguard f.g f.neg
    let y := if link then x.writeUni c.b p false 0 g ((p.pc + 4).setWidth 64) else x
    .ok (s.putWarp c (if g then y.jump c.b (p.pc + wordOffset 20 f.off.toNat) else y.advance c.b))

/-- A branch to a register target; `link` writes the link to the destination (R83). -/
def branchReg (i : Instr) (f : Fmt3) (s : State) (link : Bool) : Out :=
  issue i s fun s c x p =>
    let g := x.cguard f.g f.neg
    match x.readCause p (uniSources g [f.a.toNat]) with
    | some t => .error t
    | none =>
      let target : VA := (x.uval p f.a.toNat).setWidth 57
      if g && target.toNat % 4 != 0 then .error (Trap.of 0x182 0)
      else
        let y := if link then x.writeUni c.b p f.nw f.d.toNat g ((p.pc + 4).setWidth 64) else x
        .ok (s.putWarp c (if g then y.jump c.b target else y.advance c.b))

/-- BRA (R83). -/
def execBra (f : FmtB) (s : State) : Out := branchWord (.bra f) f s false

/-- CALL (R83). -/
def execCall (f : FmtB) (s : State) : Out := branchWord (.call f) f s true

/-- CALLI (R83). -/
def execCalli (f : Fmt3) (s : State) : Out := branchReg (.calli f) f s true

/-- RET (R83). -/
def execRet (f : Fmt3) (s : State) : Out := branchReg (.ret f) f s false

/-- BRI (R83). -/
def execBri (f : Fmt3) (s : State) : Out := branchReg (.bri f) f s false

/-! ### Counted loops (R84) -/

/-- The level that an HLOOP takes: 0 when none is active, else 1 + the highest active. -/
def nextLevel (ls : List Loop) : Nat :=
  match (List.range 3).reverse.find? fun j => (ls.getD j Loop.off).count != 0 with
  | some j => j + 1
  | none => 0

/-- HLOOP (R84). -/
def execHloop (f : FmtI) (s : State) : Out :=
  issue (.hloop f) s fun s c x p =>
    let g := x.cguard f.g f.neg
    match x.readCause p (uniSources g [f.a.toNat]) with
    | some t => .error t
    | none =>
      let count : Word := (x.uval p f.a.toNat).setWidth 32
      let len := f.imm.toNat
      let j := nextLevel x.loops
      let stop : VA := p.pc + 4 + BitVec.ofNat 57 (4 * len)
      if !g then .ok (s.putWarp c (x.advance c.b))
      else if count == 0 then .ok (s.putWarp c (x.advanceBy c.b (4 + 4 * len)))
      else if j = 3 then .error (Trap.of 0x2C7 3)
      else if 0 < j && (x.loops.getD (j - 1) Loop.off).stop.toNat < stop.toNat then .error (Trap.of 0x2C8 (j - 1))
      else if x.live != 1 then .error (Trap.of 0x2C9 (topLevel x.loops))
      else
        .ok (s.putWarp c
          ({ x with loops := x.loops.set j { count := count, start := p.pc + 4, stop := stop } }.setSplit c.b
            (some (p.goTo (p.pc + 4)))))

/-! ### TRIG, YIELD, NOP and GANG -/

/-- NOP (R92). -/
def execNop (z : BitVec 24) (s : State) : Out := issue (.nop z) s fun s c x _ => .ok (s.putWarp c (x.advance c.b))

/-- TRIG (R92): a mark of a root warp, with the writes that its release waits for (R371). -/
def execTrig (f : FmtL) (s : State) : Out :=
  issue (.trig f) s fun s c x _ =>
    let y := if x.task.kind == .root && x.trig.isNone then { x with trig := some x.dueWrites } else x
    .ok (s.putWarp c (y.advance c.b))

/-- The state in which a split yields to every other split of its core that may now be offered an issue slot (R92). -/
def State.yielded (s : State) (c : Cur) : State :=
  let k := s.core c.core
  s.setCore c.core { k with yields := k.yields ++ (s.rivals c).map fun z => ((c.slot, c.b), z) }

/-- YIELD (R92): a word of the switching class. -/
def execYield (f : FmtL) (s : State) : Out :=
  issue (.yield f) s fun s c x _ => .ok ((s.putWarp c (x.advance c.b)).yielded c)

/-- The slot of the warp of an index in a workgroup (R20): one that is parked keeps its slot (R352). -/
def Core.slotOf (k : Core) (launch wg i : Nat) : Option Nat :=
  (k.slots.find? fun t => t.2.launch == launch && t.2.wg == some wg && t.2.windex == i && (t.2.warp.isSome || t.2.use == .parked)).map (·.1)

/-- The warp indices that a mask lists, ascending. -/
def listedWarps (m : Nat) : List Nat := (List.range 16).filter fun i => flag i m

/-- GANGREG for a mask of warp indices (Table 10 of R94). For a listed warp that has ended and whose slot is released the slot
number is 0 (DESIGN CHOICE, log entry 80). -/
def gangValue (k : Core) (launch wg m : Nat) : DWord :=
  let slots := (listedWarps m).map fun i => (k.slotOf launch wg i).getD 0
  BitVec.ofNat 64 ((indexed slots).foldl (fun a e => a + e.2 * 2 ^ (6 * e.1)) (slots.length * 2 ^ 36))

/-- The workgroup that a warp belongs to for GANG: not that of a task on a free slot (R94). -/
def Slot.workgroup (t : Slot) (x : Warp) : Option Nat := if x.task.kind == .deque then none else t.wg

/-- GANG (R94). -/
def execGang (f : Fmt3) (s : State) : Out :=
  issue (.gang f) s fun s c x p =>
    let g := x.cguard f.g f.neg
    match x.readCause p (uniSources g [f.a.toNat]) with
    | some t => .error t
    | none =>
      let v := (x.uval p f.a.toNat).toNat
      let m := v % 65536
      let n := (listedWarps m).length
      let bad : Except Trap State := .error (Trap.of 0x2CA (v % 2 ^ 32))
      let done (r : DWord) : Except Trap State :=
        .ok (s.putWarp c ({ x with gang := r, dirty := x.dirty || x.frozen.isSome }.advance c.b))
      if !g then .ok (s.putWarp c (x.advance c.b))
      else if v / 65536 != 0 then bad
      else if m = 0 then done 0
      else
        match (s.slot c.core c.slot).bind fun t => (t.workgroup x).map fun w => (w, t.windex) with
        | none => bad
        | some (wg, i) =>
          let ww := ((s.launch x.launch).map (·.header.wgWarps)).getD 0
          if n < 2 || 6 < n || 2 ^ ww ≤ m || !flag i m then bad
          else done (gangValue (s.core c.core) x.launch wg m)

end Sys2Proof.Machine
end

