-- ==== Sys2Proof/Machine/Global.lean ====
section
/-! DEFINITION. Global memory words (R248 to R252): lane and uniform loads, stores, atomics and reductions, and PREF. -/

namespace Sys2Proof.Machine

open Sys2Proof

/-- A lane load (R248). -/
def lanesLoad (i : Instr) (f : FmtM) (s : State) (acq : Bool) : Out :=
  globalWord i f s (sizeOf f.f.toNat) [] .read false
    (fun s _ _ l => s.newOp i 1 (.load f.f.toNat false) 5 acq false l) (some (f.b.toNat, wordsOf f.f.toNat))

/-- LDG (R248). -/
def execLdg (f : FmtM) (s : State) : Out := lanesLoad (.ldg f) f s false

/-- LDGA (R248). -/
def execLdga (f : FmtM) (s : State) : Out := lanesLoad (.ldga f) f s true

/-- A lane store (R248). -/
def lanesStore (i : Instr) (f : FmtM) (s : State) (rel : Bool) : Out :=
  globalWord i f s (sizeOf f.f.toNat) (runOf f.b.toNat f.f.toNat) .write false
    (fun s x p l => s.newOp i 1 .store 5 false rel (storeAccs (fun j => x.laneData p f.b.toNat f.f.toNat j) l)) none

/-- STG (R248). -/
def execStg (f : FmtM) (s : State) : Out := lanesStore (.stg f) f s false

/-- STGL (R248). -/
def execStgl (f : FmtM) (s : State) : Out := lanesStore (.stgl f) f s true

/-- An atomic at a scope (R249): its old value is pushed, pending. -/
def lanesAtom (i : Instr) (f : FmtM) (s : State) (scope : Nat) : Out :=
  globalWord i f s 4 (atomCodes f.b.toNat f.f.toNat) .atomic (4 ≤ scope)
    (fun s x p l => s.newOp i 1 (.atom f.f.toNat false) scope false false (atomAccs x p f.b.toNat l)) (some (0, 1))

/-- ATG.core (R249). -/
def execAtgCore (f : FmtM) (s : State) : Out := lanesAtom (.atgCore f) f s 1
/-- ATG.clus (R249). -/
def execAtgClus (f : FmtM) (s : State) : Out := lanesAtom (.atgClus f) f s 2
/-- ATG.die (R249). -/
def execAtgDie (f : FmtM) (s : State) : Out := lanesAtom (.atgDie f) f s 3
/-- ATG.pkg (R249). -/
def execAtgPkg (f : FmtM) (s : State) : Out := lanesAtom (.atgPkg f) f s 4
/-- ATG.sys (R249). -/
def execAtgSys (f : FmtM) (s : State) : Out := lanesAtom (.atgSys f) f s 5

/-- A reduction at a scope (R250): it has no result. -/
def lanesRed (i : Instr) (f : FmtM) (s : State) (scope : Nat) : Out :=
  globalWord i f s 4 [f.b.toNat] .atomic (4 ≤ scope)
    (fun s x p l => s.newOp i 1 (.red f.f.toNat) scope false false (atomAccs x p f.b.toNat l)) none

/-- REDG.die (R250). -/
def execRedgDie (f : FmtM) (s : State) : Out := lanesRed (.redgDie f) f s 3
/-- REDG.pkg (R250). -/
def execRedgPkg (f : FmtM) (s : State) : Out := lanesRed (.redgPkg f) f s 4
/-- REDG.sys (R250). -/
def execRedgSys (f : FmtM) (s : State) : Out := lanesRed (.redgSys f) f s 5

/-! ### L0 and L1 (R239 to R242) -/

/-- Whether a cluster of a die has an L1: a CACHE macro in one of its cores (R241). -/
def State.hasL1 (s : State) (d cl : Nat) : Bool :=
  (List.range 4).any fun i => !((s.core (64 * d + 4 * cl + i)).macros 0).isEmpty

/-- The state in which a compute core's cluster holds a line in its L1 (R242). -/
def State.fillL1 (s : State) (c line : Nat) : State :=
  let d := coreDie c
  let x := s.die d
  let e := (coreCluster c, line)
  if isFw c || !s.hasL1 d (coreCluster c) || x.l1.contains e then s else s.setDie d { x with l1 := x.l1 ++ [e] }

/-- The state in which a compute core holds a lease on a line (R239): 1,024 cycles from its grant, on 256 lines at most. -/
def State.lease (s : State) (c line : Nat) : State :=
  let k := s.core c
  if isFw c then s else s.setCore c { k with leases := leased k.leases line (s.timeOf (coreDie c)) 256 }

/-- The state after a lane of PREF has filled what it names (R251): a lane that would fault is skipped. -/
def State.prefetchLine (s : State) (c : Cur) (x : Warp) (level va : Nat) : State :=
  match s.access (s.whoOf c.core x) (s.tlb c.core) .read false va 1 with
  | .error _ => s
  | .ok l =>
    if l.type = 2 || level = 0 then s
    else
      let s := (s.hold c.core (s.whoOf c.core x) va).fillL1 c.core (l.pa / 128)
      if level = 2 then s.lease c.core (l.pa / 128) else s

/-- PREF (R251). -/
def execPref (f : FmtM) (s : State) : Out :=
  issue (.pref f) s fun s c x p =>
    let act := x.active p f.g f.neg
    match x.readCause p (memSources f act []) with
    | some t => .error t
    | none =>
      let s := (lanesOf x.width act).foldl (fun s l => s.prefetchLine c x f.f.toNat (x.laneVa p f l)) s
      .ok (s.retire c)

/-! ### Uniform words (R252) -/

/-- LDU (R252). -/
def execLdu (f : FmtM) (s : State) : Out :=
  uniMemWord (.ldu f) f s (sizeOf f.f.toNat) [] .read
    (fun s _ _ a => s.newOp (.ldu f) 1 (.load f.f.toNat true) 5 false false [a])
    (some (f.b.toNat, if f.f = 6 then 2 else 1))

/-- The data of STU (R252). -/
def Warp.uniData (x : Warp) (p : Split) (b f : Nat) : List Byte :=
  (toBytes 8 (x.uval p b).toNat ++ (if f = 6 then toBytes 8 (x.uval p (b + 1)).toNat else [])).take (sizeOf f)

/-- STU (R252). -/
def execStu (f : FmtM) (s : State) : Out :=
  uniMemWord (.stu f) f s (sizeOf f.f.toNat) (if f.f = 6 then [f.b.toNat, f.b.toNat + 1] else [f.b.toNat]) .write
    (fun s x p a => s.newOp (.stu f) 1 .store 5 false false [{ a with data := indexed (x.uniData p f.b.toNat f.f.toNat) }])
    none

/-- ATU (R252): an 8-byte word; .cas compares with k0 at issue, and the old value is pushed, pending. -/
def execAtu (f : FmtM) (s : State) : Out :=
  uniMemWord (.atu f) f s 8 (atomCodes f.b.toNat f.f.toNat) .atomic
    (fun s x p a => s.newOp (.atu f) 1 (.atom f.f.toNat true) 3 false false
      [{ a with opnd := (x.uval p f.b.toNat).toNat, data := indexed (toBytes 8 (x.uval p 0).toNat) }])
    (some (0, 1))

end Sys2Proof.Machine
end

