-- ==== Sys2Proof/Machine/MemPerform.lean ====
section
/-! DEFINITION. Performing operations in flight: in which order (R214, R218, R256 to R260), with what effect, and how their
data returns and their counters fall (R103, R220). -/

namespace Sys2Proof.Machine

open Sys2Proof

/-! ### Order -/

/-- Whether an operation waits at its ring (R218). -/
def Core.waits (k : Core) (o : Op) : Bool := k.ringWait.any fun w => w.2.2.2 == o.id

/-- Whether an operation is a pop or a peek that waits at its ring, which holds back only later pops and peeks (R214). -/
def Core.passable (k : Core) (o : Op) : Bool :=
  match o.ring with
  | some (_, false) => k.waits o
  | _ => false

/-- Whether an access not yet performed shares a byte with another. -/
def Acc.meets (a b : Acc) : Bool := b.got.isNone && rangesMeet (a.pa, a.size) (b.pa, b.size)

/-- Whether an operation takes words from a program ring: an acquire at .core of what a push released (R260). -/
def Op.pops (o : Op) : Bool := (o.ring.map (·.2)) == some false

/-- Whether an operation brings words to a program ring. -/
def Op.pushes (o : Op) : Bool := (o.ring.map (·.2)) == some true

/-- The operations of a warp issued before one and not yet performed. -/
def Warp.before (x : Warp) (o : Op) : List Op := (x.ops.takeWhile fun e => e.id != o.id).filter fun e => !e.performed

/-- Whether an access of an operation may be performed now, as far as the warp's own order goes (R214, R258 to R260, R265): nothing
issued since a FENCE that still holds its split, a push after the accesses that it releases, and no access to global memory before a
pop that acquires (R260, R267). -/
def State.inOrder (s : State) (c : Nat) (x : Warp) (o : Op) (a : Acc) : Bool :=
  let earlier := x.before o
  !x.fenced o.id && !earlier.any (fun e => e.acq) &&
    (!o.rel || (!earlier.any Op.access && (decide (o.scope < 4) || s.applied x.stamped))) &&
    (!o.pushes || !earlier.any Op.access) &&
    (if o.path = 1 then !earlier.any fun e => e.pops || (e.path == 1 && e.access && e.accs.any a.meets)
     else !earlier.any fun e => e.path != 1 && e.access &&
       !((s.core c).passable e && match o.ring with
         | some (_, false) => false
         | _ => true))

/-! ### Returning data -/

/-- A warp with one of its operations changed. -/
def Warp.mapOp (x : Warp) (id : Nat) (f : Op → Op) : Warp :=
  { x with ops := x.ops.map fun o => if o.id = id then f o else o }

/-- An operation with a lane's access performed. -/
def Op.perform (o : Op) (lane : Nat) : Op :=
  let l := o.accs.filter fun a => a.lane != lane
  { o with accs := l, done := l.isEmpty }

/-- The operations of a warp after those that have completed have left, in issue order in each path (R220); `open_` holds the
paths with an earlier operation that has not. -/
def leaveOps : List Nat → List Op → List Op
  | _, [] => []
  | open_, o :: r =>
    if o.done && !open_.contains o.path then leaveOps open_ r
    else o :: leaveOps (o.path :: open_) r

/-- A list of things to wait for, and the stamps gathered, after an operation has been performed (R195, R264). -/
def settle (id : Nat) (st : List Nat) (due stamped : List Nat) : List Nat × List Nat :=
  if due.contains id then (due.filter fun i => i != id, joinClocks stamped st) else (due, stamped)

/-- A closure after an operation has been performed. -/
def Closure.settle (q : Closure) (id : Nat) (st : List Nat) : Closure :=
  let r := Sys2Proof.Machine.settle id st q.due q.stamped
  { q with due := r.1, stamped := r.2 }

/-- A task that awaits its start after an operation has been performed. -/
def Task.settle (t : Task) (id : Nat) (st : List Nat) : Task :=
  let r := Sys2Proof.Machine.settle id st t.due t.stamped
  { t with due := r.1, stamped := r.2 }

/-- A core after an operation that a SPAWN may have released has been performed (R195). -/
def Core.settle (k : Core) (id : Nat) (st : List Nat) : Core :=
  { k with
    deque := k.deque.map fun q => q.settle id st,
    parkedAreas := k.parkedAreas.map fun a => (a.1, a.2.1.map fun q => q.settle id st, a.2.2),
    arrivals := k.arrivals.map fun a => (a.1, a.2.settle id st),
    steals := k.steals.map fun e => { e with answer := e.answer.map fun o => o.map fun q => q.settle id st },
    slots := k.slots.map fun t => (t.1, { t.2 with task := t.2.task.map fun z => z.settle id st }) }

/-- The state after a warp's write has been performed for all who wait for it (R195). -/
def State.settled (s : State) (id : Nat) (st : List Nat) : State :=
  { s with cores := s.cores.map fun k => (k.1, k.2.settle id st) }

/-- A split after an acquire of its warp has returned: it fetches afresh (R278), but for a word that it has issued. -/
def Split.refetch (p : Split) : Split := if p.issued then p.unbuffer else { p.unbuffer with cur := [] }

/-- A warp after an acquire has returned. -/
def Warp.refetch (x : Warp) : Warp :=
  x.restep { x with
    a := x.a.map Split.refetch, b := x.b.map Split.refetch,
    frozen := x.frozen.map fun z => { z with a := z.a.map Split.refetch, b := z.b.map Split.refetch } }

/-- The state after the warp of a slot has an operation's access performed: completed operations leave, and what waited for
one is told. -/
def State.opPerformed (s : State) (c w : Nat) (x : Warp) (o : Op) : State :=
  let s := s.setWarp c w { x with ops := leaveOps [] x.ops }
  if o.done && o.isWrite then s.settled o.id (s.releaseClock c x) else s

/-- A warp with the words of a lane's load returned. -/
def Warp.returnLane (x : Warp) (o : Op) (f lane : Nat) (b : List Byte) (z : Option (BitVec 10)) : Warp :=
  (List.range (wordsOf f)).foldl (fun x i => x.deliver lane o.id i (loadedWord f b i) z) x

/-- A warp with the entries of LDU returned. -/
def Warp.returnUni (x : Warp) (o : Op) (f : Nat) (b : List Byte) (z : Option (BitVec 10)) : Warp :=
  (List.range (if f = 6 then 2 else 1)).foldl (fun x i => x.deliverUni o.id i (loadedDWord f b i) z) x

/-- A warp with the old value of an atomic returned. -/
def Warp.returnOld (x : Warp) (o : Op) (wide : Bool) (lane old : Nat) (z : Option (BitVec 10)) : Warp :=
  if wide then x.deliverUni o.id 0 (BitVec.ofNat 64 old) z else x.deliver lane o.id 0 (BitVec.ofNat 32 old) z

/-! ### SRAM (R213 to R215, R222) -/

/-- The poison of n bytes of SRAM (R215; DEDUCED, log entry 39). -/
def Core.sramPoison (k : Core) (a n : Nat) : Option (BitVec 10) :=
  if k.badWords.any fun w => rangesMeet (4 * w, 4) (a, n) then some 0x382 else none

/-- A core with bytes stored in SRAM: words that are rewritten whole are good again (R215). -/
def Core.sramStore (k : Core) (a : Nat) (l : List (Nat × Byte)) : Core :=
  { k with sram := memPatch k.sram a l,
           badWords := k.badWords.filter fun w => !(decide (a ≤ 4 * w) && decide (4 * w + 4 ≤ a + l.length)) }

/-- A lane's SRAM store or atomic performed: the core and the warp after it. -/
def performSram (k : Core) (x : Warp) (o : Op) (a : Acc) : Core × Warp :=
  match o.kind with
  | .store => (k.sramStore a.pa a.data, x)
  | .atom fn _ =>
    match k.sramPoison a.pa 4 with
    | some z => (k, x.returnOld o false a.lane 0 (some z))
    | none =>
      let old := ofBytes (k.sramRead a.pa 4)
      (k.sramStore a.pa (indexed (toBytes 4 (atomFn fn 32 old a.opnd a.cmp))), x.returnOld o false a.lane old none)
  | _ => (k, x)

/-! ### Global memory (R247 to R252, R283) -/

/-- XPROBE's result for a line (Table 3 of R283). -/
def State.probeWord (s : State) (c : Nat) (w : Who) (line : Nat) : DWord :=
  match s.pubOf w line with
  | none => 1
  | some .clean => BitVec.ofNat 64 (128 + 5 * 16)
  | some (.pub sc o) =>
    BitVec.ofNat 64 (originOf o * 2 ^ 23 + bit (inScope sc o c) * 128 + sc * 16 + 2)

/-- A store or atomic to control space performed (R383). -/
def State.performCtrl (s : State) (x : Warp) (o : Op) (a : Acc) : State × Warp :=
  let old := s.ctrlRead a.pa
  match o.kind with
  | .store => (s.ctrlWrite a.cmp a.pa (BitVec.ofNat 64 (ofBytes (a.data.map (·.2)))), x)
  | .atom fn _ =>
    (s.ctrlWrite a.cmp a.pa (BitVec.ofNat 64 (atomFn fn 64 old.toNat a.opnd (ofBytes (a.data.map (·.2))))),
     x.returnOld o true 0 old.toNat none)
  | _ => (s, x)

/-- The state in which a core's L0 and its cluster's L1 hold what a load of a type has read (R239, R242). -/
def State.cached (s : State) (c type line : Nat) : State :=
  if type = 0 ∨ type = 1 then (s.fillL1 c line).lease c line else s

/-- A warp whose load has filled or hit a line in L0: it remembers the last 32 (R349). -/
def Warp.sees (x : Warp) (type line : Nat) : Warp :=
  if type = 0 ∨ type = 1 then { x with recent := (line :: x.recent.filter fun i => i != line).take 32 } else x

/-- The state in which the writing cluster's L1 holds a line (R242). -/
def State.cachedWrite (s : State) (c type line : Nat) : State := if type = 0 ∨ type = 1 then s.fillL1 c line else s

/-- The bytes of a lane's read, with the cause that poisons them and the state after it; nothing while it must wait. -/
def State.readLane (s : State) (c : Nat) (x : Warp) (o : Op) (a : Acc) : Option Got :=
  let w := s.whoOf c x
  let line := a.pa / 128
  if o.path != 1 then some (s, (s.core c).sramRead a.pa a.size, (s.core c).sramPoison a.pa a.size)
  else if a.type = ctrlType then some (s, toBytes 8 (s.ctrlRead a.pa).toNat, none)
  else if o.kind = .probe then
    (if s.readyFor w.die line then some (s, toBytes 8 (s.probeWord c w line).toNat, none) else none)
  else (s.load w a.type a.hs a.pa a.size a.keyIdx).map fun r => (r.1.cached c a.type line, r.2)

/-- A warp to which what a lane has read returns. -/
def Warp.returned (x : Warp) (o : Op) (a : Acc) (b : List Byte) (z : Option (BitVec 10)) : Warp :=
  match o.kind with
  | .load f true => x.returnUni o f b z
  | .load f false => x.returnLane o f a.lane b z
  | .probe => x.deliverUni o.id 0 (BitVec.ofNat 64 (ofBytes b)) z
  | _ => x

/-- A read-modify-write performed with its result; a warp with the stamps it sent. -/
def State.performRmw (s : State) (c : Nat) (x : Warp) (a : Acc) (n : Nat) (f : Nat → Nat) :
    Option (State × Warp × Nat × Option (BitVec 10)) :=
  (s.rmw (s.whoOf c x) a.type a.hs a.pa n a.keyIdx f).map fun r =>
    (r.1.cachedWrite c a.type (a.pa / 128), { x with stamped := restamp s r.1 (coreDie c) x.stamped }, r.2.1, r.2.2)

/-- A write, atomic or reduction of global memory performed at its place: the state and the warp after it, or nothing while it must
wait. -/
def State.performGlobal (s : State) (c : Nat) (x : Warp) (o : Op) (a : Acc) : Option (State × Warp) :=
  let w := s.whoOf c x
  let line := a.pa / 128
  if a.type = ctrlType then some (s.performCtrl x o a)
  else
    match o.kind with
    | .store =>
      (s.store w a.type a.hs a.pa a.data a.keyIdx).map fun t =>
        (t.cachedWrite c a.type line, { x with stamped := restamp s t (coreDie c) x.stamped })
    | .atom fn wide =>
      let n := if wide then 8 else 4
      let cmp := if wide then ofBytes (a.data.map (·.2)) else a.cmp
      (s.performRmw c x a n fun old => atomFn fn (8 * n) old a.opnd cmp).map fun r =>
        (r.1, r.2.1.returnOld o wide a.lane r.2.2.1 r.2.2.2)
    | .red fn => (s.performRmw c x a 4 fun old => redFn fn old a.opnd).map fun r => (r.1, r.2.1)
    | _ => some (s, x)

/-! ### Rings (R218) -/

/-- The words that a push brings, in lane order. -/
def Op.pushed (o : Op) : List Cell32 :=
  o.accs.flatMap fun a => (List.range (a.data.length / 4)).map fun i =>
    Cell32.of (loadedWord 6 (a.data.map (·.2)) i)

/-- Whether a ring can serve an operation now. -/
def Core.ringReady (k : Core) (o : Op) : Bool :=
  match o.kind with
  | .push r e => decide ((k.ring r).length + o.accs.length * e ≤ 4096)
  | .pop r e => decide (o.accs.length * e ≤ (k.ring r).length)
  | .peek r e => o.accs.all fun a => decide ((a.va + 1) * e ≤ (k.ring r).length)
  | _ => false

/-- A lane's words of a ring delivered, from a place in the ring. -/
def Warp.takeRing (x : Warp) (o : Op) (ring : List Cell32) (lane at_ e : Nat) : Warp :=
  (List.range e).foldl (fun x i =>
    let v := ring.getD (at_ + i) (Cell32.of 0)
    x.deliver lane o.id i v.v v.poison) x

/-- A ring operation performed as one whole. -/
def performRing (k : Core) (x : Warp) (o : Op) : Core × Warp :=
  let k := { k with ringWait := k.ringWait.filter fun w => w.2.2.2 != o.id }
  match o.kind with
  | .push r _ => ({ k with rings := put k.rings r (k.ring r ++ o.pushed) }, x)
  | .pop r e =>
    let v := k.ring r
    ({ k with rings := put k.rings r (v.drop (o.accs.length * e)) },
     (indexed o.accs).foldl (fun x z => x.takeRing o v z.2.lane (z.1 * e) e) x)
  | .peek r e => (k, o.accs.foldl (fun x a => x.takeRing o (k.ring r) a.lane (a.va * e) e) x)
  | _ => (k, x)

/-- The state after a ring has performed an operation of a warp. -/
def State.ringDone (s : State) (c w : Nat) (x : Warp) (o : Op) : State :=
  let r := performRing (s.core c) x o
  (s.setCore c r.1).opPerformed c w (r.2.mapOp o.id fun o => { o with accs := [], done := true }) { o with done := true }

/-- The state after a ring operation has reached its ring: it is performed at once, or waits behind those of its kind. -/
def State.reachRing (s : State) (c w : Nat) (x : Warp) (o : Op) (r : Nat) (push : Bool) : State :=
  let k := s.core c
  if k.waits o then s
  else if k.ringReady o && !k.ringWait.any fun e => e.1 == r && e.2.1 == push then s.ringDone c w x o
  else s.setCore c { k with ringWait := k.ringWait ++ [(r, push, w, o.id)] }

/-- RING_PERFORM (R218): the first push, or the first pop or peek, that waits at a ring is performed once the ring can serve it. -/
def execRingPerform (c r : Nat) (push : Bool) (s : State) : Out :=
  let k := s.core c
  match k.ringWait.find? fun e => e.1 == r && e.2.1 == push with
  | none => .next s
  | some (_, _, w, id) =>
    match (s.warp c w).bind fun x => (x.ops.find? fun o => o.id == id).map fun o => (x, o) with
    | none => .next s
    | some (x, o) => .next (if k.ringReady o then s.ringDone c w x o else s)

/-! ### The rows LOAD_RETURN and WRITE_PERFORMED -/

/-- The operation of a slot with a number, and its access of a lane that is left. -/
def State.laneOf (s : State) (c w id lane : Nat) : Option (Warp × Op × Acc) :=
  (s.warp c w).bind fun x => (x.ops.find? fun o => o.id == id && !o.done).bind fun o =>
    (o.accs.find? fun a => a.lane == lane).map fun a => (x, o, a)

/-- The lanes of a scratchpad access that are served as one group (R213). -/
def laneGroup (size : Nat) : Nat := if size ≤ 4 then 32 else if size = 8 then 16 else 8

/-- Whether every lane group of a scratchpad access before that of a lane has been served (R213). -/
def Op.groupTurn (o : Op) (a : Acc) : Bool :=
  o.path == 1 || !o.accs.any fun e => e.got.isNone && decide (e.lane / laneGroup a.size < a.lane / laneGroup a.size)

/-- The state after a lane's read has been performed, if it may be now: its value is fixed and stays with the access until it returns
(R240, R256). -/
def State.readNow (s : State) (c w id lane : Nat) : State :=
  match s.laneOf c w id lane with
  | none => s
  | some (x, o, a) =>
    if o.isWrite || !o.access || o.ring.isSome || a.got.isSome || !o.groupTurn a || !s.inOrder c x o a then s
    else match s.readLane c x o a with
      | none => s
      | some r =>
        let fix (e : Acc) : Acc := if e.lane = lane then { e with got := some r.2 } else e
        let y := (if o.path = 1 && a.type != ctrlType && o.kind != .probe then x.sees a.type (a.pa / 128) else x).mapOp id fun e =>
          { e with accs := e.accs.map fix }
        r.1.setWarp c w (if o.acq && (o.accs.map fix).all (fun e => e.got.isSome) then y.refetch else y)

/-- The state after a lane's read has returned, if it has been performed. -/
def State.returnNow (s : State) (c w id lane : Nat) : State :=
  match s.laneOf c w id lane with
  | none => s
  | some (x, o, a) =>
    match a.got with
    | none => s
    | some (b, z) => s.opPerformed c w ((x.returned o a b z).mapOp id fun e => e.perform lane) (o.perform lane)

/-- The state after a lane's write, atomic or reduction of an operation has been performed, if it may be now. -/
def State.writeNow (s : State) (c w id lane : Nat) : State :=
  match s.laneOf c w id lane with
  | none => s
  | some (x, o, a) =>
    let first := o.kind == .store || !o.accs.any fun e => decide (e.lane < lane) && e.pa == a.pa
    if !first || !o.groupTurn a || !s.inOrder c x o a then s
    else
      let r : Option (State × Warp) :=
        if o.path = 1 then s.performGlobal c x o a
        else
          let z := performSram (s.core c) x o a
          some (s.setCore c z.1, z.2)
      match r with
      | none => s
      | some (t, y) =>
        let t := if o.path = 1 && o.kind == .store then s.storedBy t c w (a.pa / 128) (o.rel && decide (4 ≤ o.scope)) else t
        t.opPerformed c w (y.mapOp id fun e => e.perform lane) (o.perform lane)

/-- The state after lanes of a read have been performed whose data returns later (R240, R256; DEDUCED, log entry 36). -/
def State.performReads (s : State) (c w id : Nat) (lanes : LaneMask) : State :=
  (lanesOf 64 lanes).foldl (fun s l => s.readNow c w id l) s

/-- The state after the queue controller has taken a BANKSET (R225). -/
def State.performBankset (s : State) (c w : Nat) (x : Warp) (o : Op) (m mode : Nat) : State :=
  let r := s.doBankset c x.launch m mode
  r.1.opPerformed c w ((x.deliverUni o.id 0 (BitVec.ofNat 64 r.2) none).mapOp o.id fun o => { o with done := true })
    { o with done := true }

/-- The state after what an MRESQ has read returns (R330). -/
def State.returnMresq (s : State) (c w : Nat) (x : Warp) (o : Op) : State :=
  match o.accs with
  | [] => s
  | a :: _ =>
    s.opPerformed c w ((x.deliverUni o.id 0 (BitVec.ofNat 64 a.opnd) none).mapOp o.id fun o => { o with done := true })
      { o with done := true }

/-- The state after lanes of an operation of a slot have been performed, or it has reached its ring or the queue controller;
`write` for the row of stores, atomics, reductions and pushes. -/
def State.performOp (s : State) (c w id : Nat) (lanes : LaneMask) (write : Bool) : State :=
  match (s.warp c w).bind fun x => (x.ops.find? fun o => o.id == id && !o.done).map fun o => (x, o) with
  | none => s
  | some (x, o) =>
    match o.kind with
    | .engine _ => s
    | .mresq _ => if write then s else s.returnMresq c w x o
    | .bankset m mode => if write then s else s.performBankset c w x o m mode
    | .push r _ => if write && s.inOrder c x o (ringAcc 0 0 []) then s.reachRing c w x o r true else s
    | .pop r _ => if !write && s.inOrder c x o (ringAcc 0 0 []) then s.reachRing c w x o r false else s
    | .peek r _ => if !write && s.inOrder c x o (ringAcc 0 0 []) then s.reachRing c w x o r false else s
    | _ =>
      if o.isWrite != write then s
      else if write then (lanesOf 64 lanes).foldl (fun s l => s.writeNow c w id l) s
      else (lanesOf 64 lanes).foldl (fun s l => (s.readNow c w id l).returnNow c w id l) s

/-- LOAD_RETURN (R103, R220): the data of an operation's reads returns; those not yet performed are performed with it (DEDUCED, log
entry 36). -/
def execLoadReturn (c w o : Nat) (lanes : LaneMask) (s : State) : Out := .next (s.performOp c w o lanes false)

/-- WRITE_PERFORMED (R220, R256): stores, atomics or reductions of an operation are performed. -/
def execWritePerformed (c w o : Nat) (lanes : LaneMask) (s : State) : Out := .next (s.performOp c w o lanes true)

end Sys2Proof.Machine
end

