-- ==== Sys2Proof/Machine/Matrix.lean ====
section
/-! DEFINITION. The matrix array (R308 to R336): seltag, ganged issue, suits and the hand, the array's own steps and its
arithmetic, stalls, batches and ownership. -/

namespace Sys2Proof.Machine

open Sys2Proof

/-! ### Seltag (R313) -/

/-- TAGSET (R313). -/
def execTagset (f : Fmt3) (s : State) : Out :=
  issue (.tagset f) s fun s c x p =>
    let act := x.active p f.g f.neg
    match x.readCause p (laneSources act [f.a.toNat]) with
    | some t => .error t
    | none => .ok (s.putWarp c ({ x with lanes := mapPlace (fun l a =>
        if act.getLsbD l then { a with tag := (x.val p (.int 32) f.a.toNat l).setWidth 8 } else a) 0 x.lanes,
                                                dirty := x.dirty || (x.frozen.isSome && act != 0) }.advance c.b))

/-- TAGV (R313). -/
def execTagv (f : Fmt3) (s : State) : Out :=
  laneWord (.tagv f) s f.nw f.g f.neg f.d.toNat 4 [] fun x _ l => (x.lane l).tag.setWidth 32

/-! ### Elements (R310, R312) -/

/-- K of an array format (Table 2 of R310). -/
def matK (fmt : Nat) : Nat := if fmt = 1 then 64 else if fmt = 7 then 256 else 128

/-- Element i of a packed run of elements of a format. -/
def packedElem (fmt : Nat) (at_ : Nat → Byte) (i : Nat) : Nat :=
  if fmt = 1 then ofBytes [at_ (2 * i), at_ (2 * i + 1)]
  else if fmt = 7 then bitsOf 4 (4 * (i % 2)) (at_ (i / 2)).toNat
  else (at_ i).toNat

/-- The value of an element of an array format. -/
def matNum (fmt w : Nat) : Num := elemNum fmt true w

/-- Element k of an A row. -/
def Row.elem (r : Row) (fmt k : Nat) : Num := matNum fmt (packedElem fmt (fun i => r.a.getD i 0) k)

/-- The bytes of a suit: 8,192 of weights and 512 of scales (R308). -/
def Matrix.suit (m : Matrix) (s : Nat) : List Host.Cell := (get m.suits s).getD []

/-- Weight (k, n) of a suit (Table 2 of R310). -/
def Matrix.weight (m : Matrix) (s k n : Nat) : Num := matNum m.fmt (packedElem m.fmt (memGet (m.suit s)) (64 * k + n))

/-- A product with its two E8M0 scales; none where it is a NaN (R312). -/
def scaledProduct (xa xw : Nat) (a w : Num) : Option Num :=
  if xa = 255 ∨ xw = 255 then none
  else match mulNum a w with
    | some (.fin n m e) => some (.fin n m (e + ((xa : Int) - 127) + ((xw : Int) - 127)))
    | r => r

/-- Whether a term is an infinity of a sign. -/
def isInf (neg : Bool) : Option Num → Bool
  | some (.inf n) => n == neg
  | _ => false

/-- Whether a term is a NaN. -/
def isNanTerm : Option Num → Bool
  | none => true
  | some v => v.isNan

/-- The finite terms of a sum. -/
def finTerms (l : List (Option Num)) : List Term :=
  l.filterMap fun t => match t with
    | some (.fin n m e) => some (n, m, e)
    | _ => none

/-- The F32 sum of K terms (R176, R312). -/
def sumOf (fmt k : Nat) (l : List (Option Num)) : Nat :=
  if l.any isNanTerm || (l.any (isInf false) && l.any (isInf true)) then F32.nanPat false
  else if l.any (isInf false) then F32.infPat false
  else if l.any (isInf true) then F32.infPat true
  else dotValue fmt k (finTerms l)

/-- s(n) of a row through a suit (R312). -/
def Matrix.column (m : Matrix) (mx : Bool) (r : Row) (s n : Nat) : Nat :=
  let scaled := mx && m.mx
  sumOf m.fmt (matK m.fmt) ((List.range (matK m.fmt)).map fun k =>
    let j := k / 32
    scaledProduct (if scaled then (r.aux.getD j 0).toNat else 127)
      (if scaled then (memGet (m.suit s) (8192 + 64 * j + n)).toNat else 127) (r.elem m.fmt k) (m.weight s k n))

/-- A number widened or rounded into F32. -/
def toF32 (x : Num) : Nat := (F32.convert .rne 0 false x).bits

/-- Element n of a row through a constant matrix (Table 5 of R326). -/
def pseudoElem (r : Row) (ps p n : Nat) : Nat :=
  let a (k : Nat) : Nat := toF32 (r.elem 1 k)
  let seg (f : Nat → Bool) : Nat :=
    let l := (List.range 64).filter f
    sumOf 1 l.length (l.map fun k => some (r.elem 1 k))
  if ps = 0 then a n
  else if ps = 1 then a (63 - n)
  else if ps = 2 then (if n + p < 64 then a (n + p) else 0)
  else if ps = 3 then (if p ≤ n then a (n - p) else 0)
  else if ps = 4 then a ((n + p) % 64)
  else if ps = 5 then a (n ^^^ p)
  else if ps = 8 then seg fun k => k / 2 ^ p == n / 2 ^ p
  else seg fun k => k ≤ n && k / 2 ^ p == n / 2 ^ p

/-! ### Operations (R317, R318) -/

/-- PS of a control word (Table 3 of R324). -/
def ctlPs (c : DWord) : Nat := bitsOf 4 56 c.toNat
/-- PARAM of a control word. -/
def ctlParam (c : DWord) : Nat := bitsOf 6 50 c.toNat
/-- PSEL of a control word. -/
def ctlPsel (c : DWord) : Bool := c.getLsbD 49
/-- ACC of a control word. -/
def ctlAcc (c : DWord) : Bool := c.getLsbD 48
/-- OFF of a control word. -/
def ctlOff (c : DWord) : Nat := bitsOf 16 32 c.toNat
/-- MX of a control word. -/
def ctlMx (c : DWord) : Bool := c.getLsbD 8
/-- IDX of a control word. -/
def ctlIdx (c : DWord) : Nat := bitsOf 6 0 c.toNat

/-- Whether a word of the MMA family looks selectors up in the hand (R314). -/
def usesHand (op : Nat) (c : DWord) : Bool := op == 0 || op == 10 || (op == 1 && !ctlPsel c)

/-- Whether an operation of the queue has captured rows: it is of the MMA family. -/
def hasRows (op : Nat) : Bool := decide (op ≤ 3) || op == 10

/-- An address of the scratchpad: 32 bits (R212). -/
def spAddr (n : Nat) : Nat := n % 2 ^ 32

/-- The window that an address of the scratchpad falls in: its macros, and its place in them (R212). -/
def State.viewFor (s : State) (c : Cur) (x : Warp) (ea : Nat) : List Nat × Nat :=
  if ea < 0x40000000 then
    match s.allocOf c x with
    | some a => (a.macros, a.base)
    | none => ([], 0)
  else ((s.core c.core).macros 2, 0)

/-- The place in SRAM of an address in a window. -/
def placeOf (v : List Nat × Nat) (ea : Nat) : Option Nat := placeIn v.1 (v.2 + spAddr ea % 0x40000000)

/-- n bytes of the scratchpad at an address in a window. -/
def Core.matRead (k : Core) (v : List Nat × Nat) (ea n : Nat) : List Byte :=
  match placeOf v ea with
  | some a => (List.range n).map fun i => k.sramByte (a + i)
  | none => List.replicate n 0

/-- A core with 4 bytes stored at an address in a window. -/
def Core.matWrite (k : Core) (v : List Nat × Nat) (ea : Nat) (b : List Byte) : Core :=
  match placeOf v ea with
  | some a => k.sramStore a (indexed b)
  | none => k

/-- OROW or DYROW of a row. -/
def Row.orow (r : Row) : Nat := bitsOf 16 16 r.index.toNat

/-- The address of element e that an operation writes for a row, through a suit (R311, R327). -/
def MatOp.dest (o : MatOp) (r : Row) (suit e : Nat) : Nat :=
  let b := o.b.toNat
  spAddr (if o.op = 10 then o.a.toNat + 128 * ctlOff o.c + 16384 * suit + 4 * e
    else if o.op = 1 then b + 256 * e + 4 * r.orow else b + 256 * r.orow + 4 * e)

/-- How many elements an operation writes for a row. -/
def MatOp.elems (o : MatOp) : Nat := if o.op = 10 then 4096 else 64

/-- The new F32 value of element e of a row's output, the old one being given (R325 to R327). -/
def Matrix.newElem (m : Matrix) (o : MatOp) (r : Row) (suit e old : Nat) : Nat :=
  if o.op = 10 then
    (F32.fma .rne 0 (r.elem 1 (e / 64)) (matNum 1 (packedElem 1 (fun i => r.aux.getD i 0) (e % 64))) (F32.unpack old)).bits
  else
    let v := if usesHand o.op o.c then m.column (ctlMx o.c) r suit e else pseudoElem r (ctlPs o.c) (ctlParam o.c) e
    if ctlAcc o.c then (F32.add .rne 0 (F32.unpack old) (F32.unpack v)).bits else v

/-- A core with element e of a row performed: 4 bytes, whole (R318). -/
def Core.matElem (k : Core) (o : MatOp) (r : Row) (suit e : Nat) : Core :=
  let ea := o.dest r suit e
  k.matWrite r.view ea (toBytes 4 (k.matrix.newElem o r suit e (ofBytes (k.matRead r.view ea 4))))

/-- Whether the array holds a format and MX mode. -/
def Matrix.holds (m : Matrix) (fmt : Nat) (mx : Bool) : Bool := m.fmt == fmt && m.mx == mx

/-- An array that a MLOAD of a suit has begun on: a new format empties the other suits and their hand entries (R328). -/
def Matrix.adopt (m : Matrix) (fmt : Nat) (mx : Bool) (suit : Nat) : Matrix :=
  if m.holds fmt mx then m
  else { m with fmt := fmt, mx := mx, suits := m.suits.filter fun e => e.1 == suit, hand := m.hand.filter fun e => e.2 == suit }

/-- An array with 4 bytes of a suit written. -/
def Matrix.setSuit (m : Matrix) (s off : Nat) (b : List Byte) : Matrix := { m with suits := put m.suits s (memWrite (m.suit s) off b) }

/-- An array with the hand entries of a selector, or of all but 255, set (R329). -/
def Matrix.setHand (m : Matrix) (a b : DWord) : Matrix :=
  let suit := bitsOf 2 0 b.toNat
  let sel := bitsOf 8 0 a.toNat
  let set (h : List (Nat × Nat)) (e : Nat) : List (Nat × Nat) := if b.getLsbD 2 then put h e suit else del h e
  { m with hand := if a.getLsbD 8 then (List.range 255).foldl set m.hand else set m.hand sel }

/-- A hand entry as MRESQ reads it (R330). -/
def Matrix.handWord (m : Matrix) (sel : Nat) : DWord :=
  match get m.hand sel with
  | some s => BitVec.ofNat 64 (4 + s)
  | none => 0

/-- The 4-byte units of an operation without rows (R328 to R331). -/
def Matrix.unitsOf (m : Matrix) (o : MatOp) : Nat :=
  if o.op = 4 then 2048 + (if o.b.getLsbD 10 then 128 else 0)
  else if o.op = 5 then 2048 + (if m.mx then 128 else 0)
  else if o.op = 11 then o.b.toNat / 4
  else 1

/-- A core with unit i of an operation without rows performed. -/
def Core.matUnit (k : Core) (o : MatOp) (i : Nat) : Core :=
  let ea := o.a.toNat + 4 * i
  let suit := bitsOf 2 0 o.b.toNat
  if o.op = 4 then
    let m := if i = 0 then k.matrix.adopt (bitsOf 4 6 o.b.toNat) (o.b.getLsbD 10) suit else k.matrix
    { k with matrix := m.setSuit suit (4 * i) (k.matRead o.view ea 4) }
  else if o.op = 5 then k.matWrite o.view ea (memRead (k.matrix.suit suit) (4 * i) 4)
  else if o.op = 11 then k.matWrite o.view ea [0, 0, 0, 0]
  else if o.op = 6 then { k with matrix := k.matrix.setHand o.a o.b }
  else k

/-- An MRESQ of a warp with what it read: an operation whose return is to come (R103, R330). -/
def Op.answer (o : Op) (v : DWord) : Op :=
  { o with accs := [{ lane := 0, va := 0, pa := 0, size := 8, key := noKey, type := 0, hs := false, data := [],
                      opnd := v.toNat, cmp := 0, got := none }] }

/-- The state with n further units of an operation without rows performed from unit i on. -/
def State.matUnits (s : State) (c : Nat) (o : MatOp) (i n : Nat) : State :=
  let k := s.core c
  let t := s.setCore c ((List.range n).foldl (fun k j => k.matUnit o (i + j)) k)
  if o.op = 7 then
    let w := o.slots.headD 0
    match t.warp c w with
    | some x => t.setWarp c w (x.mapOp o.id fun e => e.answer (k.matrix.handWord (bitsOf 8 0 o.a.toNat)))
    | none => t
  else t

/-! ### Stalls (R321 to R323) -/

/-- Bits [47:16] of the stall record. -/
def Stall.info (r : Stall) : Nat :=
  r.sel % 256 * 2 ^ 24 + r.batch % 16 * 2 ^ 20 + r.row % 512 * 2 ^ 11 + r.member % 8 * 2 ^ 8 + r.lane % 64 * 4 + r.op % 4

/-- The stall record (Table 8 of R330). -/
def Stall.word_ (r : Stall) : DWord := BitVec.ofNat 64 (r.info * 65536 + bit r.lost * 2 + bit r.stalled)

/-- The array status (Table 7 of R330). -/
def Matrix.status (m : Matrix) : DWord := BitVec.ofNat 64 (bit m.stall.stalled * 2048 + bit m.mx * 1024 + m.fmt % 16 * 64)

/-- The batch of a warp that holds an operation; an open one takes the number NEXT (Table 8 of R330). -/
def Warp.batchOf (x : Warp) (id : Nat) : Nat :=
  match x.closed.find? fun e => e.2.contains id with
  | some e => e.1
  | none => x.next

/-- Whether the warp on a slot can still serve a stall (R323). -/
def State.ownerLives (s : State) (c w : Nat) : Bool :=
  match s.warp c w with
  | some x => x.status == .running
  | none => false

/-- Whether the kernel of a slot's warp has a trap entry. -/
def State.hasTrap (s : State) (c w : Nat) : Bool :=
  match s.warp c w with
  | some x => ((s.launch x.launch).bind Launch.trapEntry).isSome
  | none => false

/-- A row's selector not held by the hand: the array stops, or abandons the operation, and an owner without a trap entry is owed the
cause (R321, R323). -/
def State.tagMiss (s : State) (c : Nat) (o : MatOp) (r : Row) : State :=
  let k := s.core c
  let w := o.slots.getD r.member 0
  let batch := ((s.warp c w).map fun x => x.batchOf o.id).getD 0
  let rec_ : Stall :=
    { stalled := true, lost := false, op := if o.op = 10 then 2 else o.op, lane := r.lane, member := r.member, row := r.pos,
      batch := batch, sel := r.sel, owner := w, word := o.word, taken := !(s.ownerLives c w && s.hasTrap c w) }
  let m := { k.matrix with stall := rec_ }
  if s.ownerLives c w && s.hasTrap c w then s.setCore c { k with matrix := m }
  else (s.setCore c { k with matrix := m.abandon }).upd { core := c, slot := w, b := false } fun x =>
    if x.status = .running ∧ x.miss.isNone then { x with miss := some (rec_.info, o.word) } else x

/-! ### MATRIX_ROW -/

/-- Whether every access that the issuing warps issued before an operation is performed (R318). -/
def State.matReady (s : State) (c : Nat) (o : MatOp) : Bool :=
  o.slots.all fun w => match s.warp c w with
    | some x => !x.undoneBefore o.id Op.access
    | none => true

/-- The state with the head operation of a core's array replaced. -/
def State.setHead (s : State) (c : Nat) (o : Option MatOp) : State :=
  let k := s.core c
  s.setCore c { k with matrix := { k.matrix with queue := o.toList ++ k.matrix.queue.drop 1 } }

/-- How many of n remaining units a step performs: all of them, or one (R318, DESIGN CHOICE, log entry 19). -/
def State.unitsNow (s : State) (n : Nat) : Nat := if Config.choice s.free then n else min 1 n

/-- The state after units of the head row of an operation through a suit. -/
def State.rowUnits (s : State) (c : Nat) (o : MatOp) (r : Row) (rest : List Row) (suit : Nat) : State :=
  let n := s.unitsNow (o.elems - o.at_)
  let k := s.core c
  let t := s.setCore c ((List.range n).foldl (fun k i => k.matElem o r suit (o.at_ + i)) k)
  if o.at_ + n < o.elems then t.setHead c (some { o with at_ := o.at_ + n })
  else t.setHead c (if rest.isEmpty then none else some { o with at_ := 0, rows := rest })

/-- The state after the array has performed what a step performs of its head operation (R317, R318). -/
def State.matHead (s : State) (c : Nat) (o : MatOp) : State :=
  if hasRows o.op then
    match o.rows with
    | [] => s.setHead c none
    | r :: rest =>
      if usesHand o.op o.c then
        match get (s.core c).matrix.hand r.sel with
        | none => s.tagMiss c o r
        | some suit => s.rowUnits c o r rest suit
      else s.rowUnits c o r rest 0
  else
    let total := (s.core c).matrix.unitsOf o
    let n := s.unitsNow (total - o.at_)
    let t := s.matUnits c o o.at_ n
    t.setHead c (if o.at_ + n < total then some { o with at_ := o.at_ + n } else none)

/-- MATRIX_ROW (R317): the array performs some of its head operation. A stalled one whose owner has ended is abandoned
(R323; DEDUCED, log entry 49). -/
def execMatrixRow (c : Nat) (s : State) : Out :=
  let k := s.core c
  match k.matrix.queue with
  | [] => .next s
  | o :: _ =>
    .next (if k.matrix.stall.stalled then (if s.ownerLives c k.matrix.stall.owner then s else s.setCore c { k with matrix := k.matrix.abandon })
      else if s.matReady c o then s.matHead c o else s)

/-! ### Ownership (R309) -/

/-- Whether a warp's matrix word is eligible to issue: its launch owns the array, or nobody does. -/
def Core.mayUse (k : Core) (x : Warp) : Bool :=
  match k.matrix.owner with
  | some l => l == x.launch
  | none => true

/-- The state in which a warp's launch owns the array of its core; a firmware core has none (DEDUCED, log entry 47). -/
def State.owns (s : State) (c : Cur) (x : Warp) : State :=
  let k := s.core c.core
  if isFw c.core then s else s.setCore c.core { k with matrix := { k.matrix with owner := some x.launch } }

/-- The state in which a launch waits for the array. -/
def State.waitsFor (s : State) (c : Cur) (x : Warp) : State :=
  let k := s.core c.core
  if k.matrix.heldSince.contains x.launch then s
  else s.setCore c.core { k with matrix := { k.matrix with heldSince := k.matrix.heldSince ++ [x.launch] } }

/-- ARRAY_CLEAR (R309): once the owner has returned its slots and every operation is complete, the array is cleared and passes
to the launch whose held word is oldest. -/
def execArrayClear (c : Nat) (s : State) : Out :=
  let k := s.core c
  let here (l : Nat) : Bool := k.slots.any fun t => t.2.launch == l
  match k.matrix.owner with
  | none => .next s
  | some l =>
    if here l || !k.matrix.queue.isEmpty then .next s
    else
      let next := k.matrix.heldSince.filter here
      .next (s.setCore c { k with matrix := { Matrix.clear with owner := next.head?, heldSince := next.drop 1 } })

/-! ### Words of one warp (R328 to R331) -/

/-- The state in which an operation of one warp is appended to the queue, or performed at once where its handler serves a
stall, and stands in the warp's open batch (R317, R319, R322). -/
def State.append (s : State) (c : Cur) (x : Warp) (o : MatOp) : State :=
  let s := (s.owns c x).fresh
  let k := s.core c.core
  let s := s.putWarp c { x with openOps := x.openOps ++ [o.id] }
  if k.serving c.slot x then s.matUnits c.core o 0 (k.matrix.unitsOf o)
  else
    let k := s.core c.core
    s.setCore c.core { k with matrix := { k.matrix with queue := k.matrix.queue ++ [o] } }

/-- Whether a word whose operation is performed at once must wait for earlier accesses of its warp (R318, R322). -/
def Core.mustWait (k : Core) (w : Nat) (x : Warp) (n : Nat) : Bool := k.serving w x && x.undoneBefore n Op.access

/-- A matrix word of one warp: its sources, the causes that its operands give, and then its operation. -/
def matWord (i : Instr) (f : Fmt3) (s : State) (op : Nat) (check : State → Cur → Warp → DWord → DWord → Option Trap) : Out :=
  onCompute i s (0x60 + op) fun s c x p =>
    let k := s.core c.core
    let g := x.cguard f.g f.neg
    if !k.mayUse x then .ok (s.waitsFor c x)
    else
      match x.readCause p (uniSources g [f.a.toNat, f.b.toNat]) with
      | some t => .error t
      | none =>
        let a := x.uval p f.a.toNat
        let b := x.uval p f.b.toNat
        match if g then check s c x a b else none with
        | some t => .error t
        | none =>
          if !g then .ok ((s.owns c x).putWarp c (x.advance c.b))
          else if k.mustWait c.slot x s.serial then .ok s
          else .ok (s.append c (x.advance c.b)
            { id := s.serial, op := op, word := wordOf i, a := BitVec.ofNat 64 (spAddr a.toNat), b := b, c := 0, rows := [],
              slots := [c.slot], view := s.viewFor c x (spAddr a.toNat), at_ := 0 })

/-- The low 32 bits of an operand, as TINFO [63:32] takes them. -/
def low32 (v : DWord) : Nat := v.toNat % 2 ^ 32

/-- A cause where a test holds, else the next. -/
def orCause (bad : Bool) (t : Trap) (r : Option Trap) : Option Trap := if bad then some t else r

/-- The SRAM causes of a range at an address (R328, R331). -/
def State.rangeCause (s : State) (c : Cur) (x : Warp) (a : DWord) (n : Nat) : Option Trap :=
  let ea := spAddr a.toNat
  orCause (ea % 128 != 0) (Trap.of 0x1C2 ea)
    (orCause (n != 0 && (s.window c x ea n).isNone) (Trap.of 0x1C1 ea) none)

/-- The MX mode that the array will have once the queue is performed (R310, R328). -/
def Matrix.mxAhead (m : Matrix) : Bool :=
  m.queue.foldl (fun r o => if o.op = 4 then o.b.getLsbD 10 else r) m.mx

/-- The MX mode that decides how long an MSTORE's image is: the array's own where its handler serves a stall and the word is performed at
once (R322), else the one that the array will have when the word is performed, as it stands at issue (DEDUCED, log entry 89). -/
def Core.mxFor (k : Core) (w : Nat) (x : Warp) : Bool := if k.serving w x then k.matrix.mx else k.matrix.mxAhead

/-- Whether b of MLOAD is one that Table 6 of R328 allows. -/
def mloadOk (b : Nat) : Bool :=
  let fmt := bitsOf 4 6 b
  b / 2 ^ 11 == 0 && bitsOf 4 2 b == 0 && (fmt == 1 || fmt == 3 || fmt == 4 || fmt == 7 || fmt == 8) &&
    !(flag 10 b && (fmt == 1 || fmt == 8))

/-- MLOAD (R328). -/
def execMload (f : Fmt3) (s : State) : Out :=
  matWord (.mload f) f s 4 fun s c x a b =>
    orCause (!mloadOk b.toNat) (Trap.of 0x241 (low32 b)) (s.rangeCause c x a (if b.getLsbD 10 then 8704 else 8192))

/-- MSTORE (R328). -/
def execMstore (f : Fmt3) (s : State) : Out :=
  matWord (.mstore f) f s 5 fun s c x a b =>
    orCause (decide (4 ≤ b.toNat)) (Trap.of 0x241 (low32 b))
      (s.rangeCause c x a (if (s.core c.core).mxFor c.slot x then 8704 else 8192))

/-- MRES (R329). -/
def execMres (f : Fmt3) (s : State) : Out :=
  matWord (.mres f) f s 6 fun _ _ _ a b =>
    orCause (decide (512 ≤ a.toNat) || (a.getLsbD 8 && bitsOf 8 0 a.toNat != 0)) (Trap.of 0x241 (low32 a))
      (orCause (decide (8 ≤ b.toNat)) (Trap.of 0x241 (low32 b)) (orCause (a == 255) (Trap.of 0x246 255) none))

/-- MZERO (R331). -/
def execMzero (f : Fmt3) (s : State) : Out :=
  matWord (.mzero f) f s 11 fun s c x a b =>
    orCause (decide (65536 < b.toNat) || b.toNat % 128 != 0) (Trap.of 0x241 (low32 b)) (s.rangeCause c x a b.toNat)

/-- MRESQ (R330): the stall record and the status are read at once, hand entries in array order. -/
def execMresq (f : Fmt3) (s : State) : Out :=
  onCompute (.mresq f) s 0x67 fun s c x p =>
    let k := s.core c.core
    let g := x.cguard f.g f.neg
    if !k.mayUse x then .ok (s.waitsFor c x)
    else if g && x.full 3 then .ok s
    else
      match x.readCause p (uniSources g [f.a.toNat]) with
      | some t => .error t
      | none =>
        if !g then .ok ((s.owns c x).putWarp c ((x.expectUni 0 f.d.toNat 1 false).advance c.b)) else
        let sel := bitsOf 9 0 (x.uval p f.a.toNat).toNat
        let o := s.newOp (.mresq f) 3 (.mresq sel) 1 false false []
        let y := (x.expectUni o.id f.d.toNat 1 true).advance c.b
        if sel < 256 then
          .ok (s.append c (y.addOp o)
            { id := o.id, op := 7, word := o.word, a := BitVec.ofNat 64 sel, b := 0, c := 0, rows := [], slots := [c.slot],
              view := ([], 0), at_ := 0 })
        else
          .ok ((s.owns c x).issueOp c y (o.answer (if sel = 256 then k.matrix.stall.word_ else if sel = 257 then k.matrix.status else 0)))

/-! ### Batches (R319, R332, R333) -/

/-- A warp whose open batch is closed under NEXT. -/
def Warp.closeBatch (x : Warp) : Warp :=
  { x with closed := put x.closed x.next x.openOps, openOps := [], next := (x.next + 1) % 16 }

/-- MFENCE (R332). -/
def execMfence (f : Fmt3) (s : State) : Out :=
  issue (.mfence f) s fun s c x p =>
    if !(s.core c.core).mayUse x then .ok (s.waitsFor c x)
    else if !x.cguard f.g f.neg then .ok ((s.owns c x).putWarp c (x.uniResult c.b p f.nw f.d.toNat false 0))
    else if !(s.core c.core).batchDone x x.next then .ok ((s.owns c x).hold_ c x p (.mfence f))
    else .ok ((s.owns c x).putWarp c (x.closeBatch.uniResult c.b { p with wait := .none } f.nw f.d.toNat true (BitVec.ofNat 64 x.next)))

/-- MWAIT (R333): an acquire at .core (R319). -/
def execMwait (f : FmtI) (s : State) : Out :=
  issue (.mwait f) s fun s c x p =>
    let g := x.cguard f.g f.neg
    let n := f.imm.toNat
    if !(s.core c.core).mayUse x then .ok (s.waitsFor c x)
    else match x.readCause p (uniSources (g && n == 16) [f.a.toNat]) with
    | some t => .error t
    | none =>
      let k := s.core c.core
      let n := if n = 16 then bitsOf 4 0 (x.uval p f.a.toNat).toNat else n
      if !g then .ok ((s.owns c x).putWarp c (x.advance c.b))
      else if k.mwaitDone x n then .ok ((s.owns c x).released_ c true)
      else if k.serving c.slot x then .error (Trap.of 0x245 0)
      else .ok ((s.owns c x).blockAt c x p (.mwait f) (.mwait n))

/-! ### Ganged issue (R315, R316) -/

/-- The slots that GANGREG lists; the warp's own where N = 0 (R94, R315). -/
def Warp.gangSlots (x : Warp) (own : Nat) : List Nat :=
  let g := x.gang.toNat
  let n := bitsOf 3 36 g
  if n = 0 then [own] else (List.range n).map fun i => bitsOf 6 (6 * i) g

/-- Whether a split stands at the rendezvous latch. -/
def Split.atLatch (p : Split) : Bool :=
  match p.wait with
  | .gang _ _ _ _ _ _ => true
  | _ => false

/-- The split of a slot that stands at the rendezvous latch. -/
def State.latched (s : State) (c w : Nat) : Option Cur :=
  (s.warp c w).bind fun x =>
    if x.status != .running then none
    else if (x.a.map Split.atLatch).getD false then some { core := c, slot := w, b := false }
    else if (x.b.map Split.atLatch).getD false then some { core := c, slot := w, b := true }
    else none

/-- A member at the latch: its split, its place in the gang, its warp, its guard, and what it arrived with. -/
structure Member where
  cur : Cur
  index : Nat
  warp : Warp
  split : Split
  n : Nat
  g : Bool
  op : Nat
  a : DWord
  b : DWord
  c : DWord
  deriving DecidableEq, Repr

/-- A member at the latch. -/
def State.member (s : State) (u : Cur) (index : Nat) : Option Member :=
  (s.warp u.core u.slot).bind fun x => (x.split u.b).bind fun p =>
    match p.wait with
    | .gang n g op a b c => some { cur := u, index := index, warp := x, split := p, n := n, g := g, op := op, a := a, b := b, c := c }
    | _ => none

/-- The word at which a member stands. -/
def Member.word (m : Member) : Word := (get m.split.cur m.split.pc).getD 0

/-- The participating lanes of a member (R315). -/
def Member.lanes (m : Member) : LaneMask :=
  maskOf m.warp.width fun l => m.warp.on m.split l && !(usesHand m.op m.c && (m.warp.lane l).tag == 0xFF)

/-- Whether Table 4 of R324 allows a control word. -/
def controlOk (op : Nat) (c : DWord) : Bool :=
  let ps := ctlPs c
  let pseudo := decide (ps ≤ 5) && (decide (2 ≤ ps) || ctlParam c == 0)
  let none_ := ps == 0 && ctlParam c == 0
  let off := ctlOff c == 0
  c.toNat / 2 ^ 60 == 0 && bitsOf 23 9 c.toNat == 0 && bitsOf 2 6 c.toNat == 0 &&
    (if op = 0 then none_ && !ctlPsel c && (ctlMx c || off)
     else if op = 1 then (if ctlPsel c then pseudo && off && !ctlMx c else none_ && (ctlMx c || off))
     else if op = 2 then pseudo && !ctlPsel c && off && !ctlMx c
     else if op = 3 then (ps == 8 || ps == 9) && decide (ctlParam c ≤ 6) && !ctlPsel c && off && !ctlMx c
     else none_ && !ctlPsel c && !ctlAcc c && !ctlMx c)

/-- Whether IDX names a lane register of a warp (R324, R340). -/
def Warp.idxOk (x : Warp) (i : Nat) : Bool := decide (i < 16 + x.nv) || (x.frozen.isSome && 40 ≤ i && decide (i < 48))

/-- The source of the index word. -/
def Member.idxSource (m : Member) : Source := { uni := false, code := ctlIdx m.c, lanes := m.lanes }

/-- The index word of a lane. -/
def Member.index_ (m : Member) (l : Nat) : Word := m.warp.val m.split (.int 32) (ctlIdx m.c) l

/-- The ranges of the scratchpad that a lane's row names: the A row first, then its output, scales or dY row and gradient
tiles (R311, R327; DEDUCED, log entry 48). -/
def Member.ranges (m : Member) (l : Nat) : List (Nat × Nat) :=
  let i := (m.index_ l).toNat
  let arow := i % 65536
  let orow := i / 65536
  let a := m.a.toNat
  let b := m.b.toNat
  let r (at_ n : Nat) : Nat × Nat := (spAddr at_, n)
  r (a + 128 * arow) 128 ::
    (if m.op = 10 then [r (b + 128 * orow) 128, r (a + 128 * ctlOff m.c) 65536]
     else (if m.op = 1 then r (b + 4 * orow) 16132 else r (b + 256 * orow) 256) ::
       (if ctlMx m.c then [r (a + 128 * ctlOff m.c + 8 * arow) 8] else []))

/-- The first range of a lane's row that does not lie in one window; an OROW of MMAT above 63 names no column (R311). -/
def State.rowFault (s : State) (m : Member) (l : Nat) : Option Nat :=
  if m.op = 1 && 64 ≤ (m.index_ l).toNat / 65536 then some (spAddr (m.b.toNat + 4 * ((m.index_ l).toNat / 65536)))
  else ((m.ranges l).find? fun e => (s.window m.cur m.warp e.1 e.2).isNone).map (·.1)

/-- Whether two members with true guards issue one word (R315). -/
def Member.same (m o : Member) : Bool := m.op == o.op && m.a == o.a && m.b == o.b && m.c == o.c && m.warp.gang == o.warp.gang

/-- The checks of the rendezvous on members with true guards (item 3 of R316): what each member raises, or none. -/
def State.gangCauses (s : State) (ms : List Member) : Option (List Trap) :=
  match ms with
  | [] => none
  | h :: _ =>
    let diff := (ms.filter fun m => !m.same h).map (·.cur.slot)
    let bounds (m : Member) : List Nat := (lanesOf m.warp.width m.lanes).filter fun l => (s.rowFault m l).isSome
    let mis := spAddr h.a.toNat % 128 != 0 || spAddr h.b.toNat % 128 != 0
    if !diff.isEmpty then some (ms.map fun _ => Trap.of 0x242 (diff.foldl min 63))
    else if !controlOk h.op h.c || ms.any fun m => !m.warp.idxOk (ctlIdx m.c) then some (ms.map fun _ => Trap.of 0x241 (low32 h.c))
    else
      match ms.findSome? fun m => m.warp.readCause m.split [m.idxSource] with
      | some t => some (ms.map fun m => (m.warp.readCause m.split [m.idxSource]).getD (Trap.lanes t.cause t.info 0))
      | none =>
        if mis then some (ms.map fun m => Trap.lanes 0x1C2
          (if spAddr m.a.toNat % 128 = 0 then spAddr m.b.toNat else spAddr m.a.toNat) m.lanes)
        else if ms.any fun m => !(bounds m).isEmpty then
          some (ms.map fun m => Trap.lanes 0x1C1 (((bounds m).head?.bind (s.rowFault m)).getD 0)
            (maskOf m.warp.width fun l => (bounds m).contains l))
        else none

/-- The captured row of a participating lane (R315). -/
def State.captureRow (s : State) (m : Member) (l : Nat) : Row :=
  let k := s.core m.cur.core
  let rs := m.ranges l
  let at_ (i : Nat) : Nat × Nat := rs.getD i (0, 0)
  let read (i : Nat) : List Byte :=
    let e := at_ i
    k.matRead (s.viewFor m.cur m.warp e.1) e.1 e.2
  { pos := m.index * m.warp.width + l, member := m.index, lane := l, sel := (m.warp.lane l).tag.toNat, index := m.index_ l,
    a := read 0, aux := if m.op = 10 then read 1 else if ctlMx m.c then read 2 else [],
    view := s.viewFor m.cur m.warp (at_ (if m.op = 10 then 2 else 1)).1 }

/-- A warp whose split has left the latch with its word done; its open batch may hold the operation. -/
def Warp.leaveLatch (x : Warp) (b : Bool) (op : List Nat) : Warp :=
  match x.split b with
  | some p => ({ x with openOps := x.openOps ++ op }.setSplit b (some { p with wait := .none })).advance b
  | none => x

/-- The state in which members have left the latch. -/
def State.leaveAll (s : State) (ms : List Member) (op : List Nat) : State :=
  ms.foldl (fun s m => s.upd m.cur fun x => x.leaveLatch m.cur.b op) s

/-- The state in which members have raised causes. -/
def State.raiseAll (s : State) (ms : List (Member × Trap)) : State :=
  ms.foldl (fun s e => s.take e.1.cur e.2 e.1.word) s

/-- Whether every SCR and STG access that members issued before their words is performed (R214, R315). -/
def gathered (ms : List Member) : Bool :=
  ms.all fun m => !m.warp.undoneBefore m.n fun o => (o.path == 0 || o.path == 2) && o.access

/-- The rendezvous of a gang whose members have all arrived (R315): the causes, the hold, or the operation. -/
def State.rendezvous (s : State) (ms : List Member) : State :=
  let live := ms.filter (·.g)
  match live with
  | [] => s.leaveAll ms []
  | h :: _ =>
    match s.gangCauses live with
    | some l => (s.leaveAll (ms.filter fun m => !m.g) []).raiseAll (live.zip l)
    | none =>
      if !gathered ms then s
      else
        let rows := live.flatMap fun m => (lanesOf m.warp.width m.lanes).map fun l => s.captureRow m l
        let o : MatOp := { id := s.serial, op := h.op, word := h.word, a := h.a, b := h.b, c := h.c, rows := rows,
                           slots := ms.map (·.cur.slot), view := ([], 0), at_ := 0 }
        let k := s.core h.cur.core
        ((s.setCore h.cur.core { k with matrix := { k.matrix with queue := k.matrix.queue ++ [o] } }).fresh).leaveAll ms [o.id]

/-- The members of a gang by their splits; none unless all have arrived. -/
def State.membersOf (s : State) (l : List Cur) : Option (List Member) :=
  let ms := (indexed l).filterMap fun e => s.member e.2 e.1
  if ms.length = l.length then some ms else none

/-- The state after the rendezvous of a gang's splits. -/
def State.meetAt (s : State) (l : List Cur) : State :=
  match s.membersOf l with
  | some ms => s.rendezvous ms
  | none => s

/-- GANG_RENDEZVOUS (R315): the gang that the warp of a slot waits for. Where a listed slot holds no present warp, every waiting
member takes 0x244. -/
def execGangRendezvous (c w : Nat) (s : State) : Out :=
  match (s.latched c w).bind fun _ => s.warp c w with
  | none => .next s
  | some x =>
    let slots := x.gangSlots w
    let here := slots.filterMap (s.latched c)
    match slots.find? fun v => !s.present c v with
    | some v => .next (s.raiseAll ((here.filterMap fun u => s.member u 0).map fun m => (m, Trap.of 0x244 v)))
    | none => .next (if here.length = slots.length then s.meetAt here else s)

/-- A word of the MMA family: its own causes, and then its arrival at the latch (R315, R316). A gang of one meets at once. -/
def gangWord (i : Instr) (f : Fmt4) (s : State) (op : Nat) : Out :=
  onCompute i s (0x60 + op) fun s c x p =>
    let k := s.core c.core
    let g := x.cguard f.g f.neg
    let alone := bitsOf 3 36 x.gang.toNat == 0
    if !k.mayUse x then .ok (s.waitsFor c x)
    else if !g && alone then .ok ((s.owns c x).putWarp c (x.advance c.b))
    else
      match x.readCause p (uniSources g [f.a.toNat, f.b.toNat, f.c.toNat]) with
      | some t => .error t
      | none =>
        if g && k.serving c.slot x then .error (Trap.of 0x245 0)
        else
          match (x.gangSlots c.slot).find? fun v => !s.present c.core v with
          | some v => .error (Trap.of 0x244 v)
          | none =>
            let v (code : BitVec 6) : DWord := if g then x.uval p code.toNat else 0
            let q := p.block (.gang s.serial g op (v f.a) (v f.b) (v f.c)) (wordOf i)
            let t := (s.owns c x).putWarp c (x.setSplit c.b (some q))
            .ok (if alone then t.meetAt [c] else t)

/-- MMA (R325). -/
def execMma (f : Fmt4) (s : State) : Out := gangWord (.mma f) f s 0
/-- MMAT (R325). -/
def execMmat (f : Fmt4) (s : State) : Out := gangWord (.mmat f) f s 1
/-- MPERM (R326). -/
def execMperm (f : Fmt4) (s : State) : Out := gangWord (.mperm f) f s 2
/-- MRED (R326). -/
def execMred (f : Fmt4) (s : State) : Out := gangWord (.mred f) f s 3
/-- MGRAD (R327). -/
def execMgrad (f : Fmt4) (s : State) : Out := gangWord (.mgrad f) f s 10

end Sys2Proof.Machine
end

