-- ==== Sys2Proof/Machine/Tasks.lean ====
section
/-! DEFINITION. The task words: SPAWN, SPAWNT, JOIN, FTEST, FCANCEL, TEXIT, DQLEN and TSELF (R195 to R205). -/

namespace Sys2Proof.Machine

open Sys2Proof

/-! ### Entries, deques and cancelling -/

/-- The lowest-numbered free entry of a table (R184). -/
def freeEntry (l : List (Nat × Future)) : Option Nat :=
  (List.range 2048).find? fun e => ((get l e).map fun f => f.st == .free).getD true

/-- The generation after one (R184). -/
def nextGen (g : Nat) : Nat := if 4095 ≤ g then 1 else g + 1

/-- An entry allocated to a launch, its closure or operation standing at a core (R184). -/
def Future.allocate (f : Future) (st : FutState) (launch place : Nat) : Future :=
  { f with gen := nextGen f.gen, st := st, launch := launch, place := place, value := 0, cause := 0, info := 0, page := 0,
           orphan := false, stamped := [] }

/-- Whether an entry is final (R185). -/
def Future.final (f : Future) : Bool := f.st == .resolved || f.st == .cancelled || f.st == .failed

/-- Whether an entry holds a task or engine operation that is not final. -/
def Future.pending (f : Future) : Bool := !f.final && f.st != .free

/-- A core with the closure of an entry taken out of a tenant's deque and its ring space freed. -/
def Core.dropClosure (k : Core) (t c e : Nat) : Core :=
  let k := ((k.dequeOf t).filter fun q => q.isFor c e).foldl Core.unstage k
  k.setDeque t ((k.dequeOf t).filter fun q => !q.isFor c e)

/-- A core on which the staging of an entry's task is abandoned: its slot and ring space are free (R185). -/
def Core.dropStaging (k : Core) (h : DWord) : Core :=
  let hit (t : Nat × Slot) : Bool := t.2.use == .staging && (t.2.task.map fun u => u.handle == h).getD false
  let k := (k.slots.filter hit).foldl (fun k t =>
    match t.2.task.bind (·.allot) with
    | some a => k.freeAllot a
    | none => k) k
  { k with slots := k.slots.map fun t => if hit t then (t.1, { t.2 with use := .free, task := none }) else t }

/-- The closures of a tenant's deque that no JOIN has taken (R186). -/
def Core.closures (k : Core) (t : Nat) : List Closure := (k.dequeOf t).filter fun q => q.held.isNone

/-- The state in which a queued or staging task is cancelled (R185, R200): a closure under way to a thief is dropped when it
arrives. -/
def State.cancelTask (s : State) (t c e : Nat) : State :=
  let f := (s.core c).fut t e
  let p := f.place
  let k := s.core p
  let s := s.setCore p ((k.dropClosure t c e).dropStaging (handleOf c e f.gen))
  (s.updFut t c e Future.cancel).cancelFlight fun q => q.isFor c e && (s.tenantOf q.launch == t)

/-! ### Inline calls (R29, R196) -/

/-- The causes of an inline call that its closure and the warp give, in the order of Table 13 (R205). -/
def inlineCause (k : Core) (x : Warp) (words : List Word) : Option Trap :=
  if k.capacity 2 < stagedTotal words then some (Trap.of 0x209 (stagedTotal words / 128))
  else if 8 ≤ x.inline.length then some (Trap.of 0x20A 8)
  else if x.live != 1 then some (Trap.of 0x20B 0)
  else none

/-- The tiles of an inline call: they wait, the loader failed, or they stand in the ring at an allotment. -/
inductive Tiles where
  | wait (s : State) (id : Option Nat)
  | failed (s : State) (t : Trap)
  | ready (id : Option Nat)

/-- The staging of an inline call: an allotment is made when its request's turn has come and the ring has room, and its tiles awaited
(R190, R191, R216). -/
def State.stageInline (s : State) (c : Nat) (w : Nat) (x : Warp) (words : List Word) (id : Option Nat) : Tiles :=
  if tileCount words = 0 then .ready none
  else
    let k := s.core c
    match id with
    | none =>
      let r := s.askSpace c w (!x.asks) words x.launch
      .wait r.1 r.2
    | some n =>
      match k.allotFault n with
      | some f => .failed (s.setCore c (k.freeAllot n)) (Trap.of 0x207 f.1)
      | none => if k.staged n then .ready (some n) else .wait s (some n)

/-- The split area of a slot (R80, R347). -/
def State.slotArea (s : State) (c : Cur) : Nat := ((s.slot c.core c.slot).map (·.area)).getD 0

/-- The state in which a warp starts an inline task on its slot (R196). -/
def State.startInline (s : State) (c : Cur) (x : Warp) (f : InlineFrame) (kind : TaskKind) (h : DWord) (words : List Word)
    (id : Option Nat) : State :=
  match s.launch x.launch with
  | none => s
  | some e =>
    let off := (id.map (s.core c.core).allotOff).getD 0
    s.putWarp c (x.startInline e (s.slotArea c) f (Task.ofClosure kind false false h id off words [] []))

/-! ### SPAWN and SPAWNT (R197) -/

/-- The closure words of a SPAWN (R179, R197). -/
def Warp.closureWords (x : Warp) (p : Split) (f : Fmt3) : List Word :=
  if x.width = 16 then
    (List.range 32).map fun w =>
      if w < 16 then x.val p (.int 32) f.a.toNat w else x.val p (.int 32) f.b.toNat (w - 16)
  else (List.range 32).map fun w => x.val p (.int 32) f.a.toNat w

/-- The sources of a SPAWN, read in lanes 0 to 31 (R197). -/
def Warp.closureSources (x : Warp) (f : Fmt3) : List Source :=
  laneSources (lanesMask (min 32 x.width)) (if x.width = 16 then [f.a.toNat, f.b.toNat] else [f.a.toNat])

/-- The cause of a closure's words (R197, R205). -/
def closureCause (ntasks : Nat) (tiles : Bool) (l : List Word) : Option Trap :=
  if ntasks ≤ word l 0 || word l 0 / 4096 != 0 then some (Trap.of 0x201 0)
  else if word l 1 / 1024 != 0 || bitsOf 5 3 (word l 1) != 0 || 4 < tileCount l || (!tiles && tileCount l != 0) then
    some (Trap.of 0x202 1)
  else (tileCause l).map (Trap.of 0x203)

/-- A closure pushed at the hot end of the issuing core's deque, with its entry (R184, R186, R197): a release (R195). -/
def State.pushClosure (s : State) (c : Cur) (x : Warp) (e : Nat) (words : List Word) : State × DWord :=
  let t := s.tenantOf x.launch
  let k := s.core c.core
  let f := (k.fut t e).allocate .queued x.launch c.core
  let q : Closure := { words := words, launch := x.launch, core := c.core, entry := e, gen := f.gen, allot := none, held := none,
                       due := x.dueWrites, stamped := s.releaseClock c.core x, cancelled := false }
  (s.setCore c.core ((k.setFut t e f).setDeque t (k.dequeOf t ++ [q])), handleOf c.core e f.gen)

/-- Whether a warp stages an inline call of a closure, and so is to run it inline whatever room has come about (R196). -/
def State.stages (s : State) (c : Cur) (x : Warp) (words : List Word) : Bool :=
  x.staging.any fun n => ((s.core c.core).allotOf n).map (·.words) == some words

/-- The state and the warp without the staging of another closure's inline call, which the warp has left. -/
def State.keepStaging (s : State) (c : Cur) (x : Warp) (words : List Word) : State × Warp :=
  match x.staging with
  | some n => if s.stages c x words then (s, x) else (s.setCore c.core ((s.core c.core).freeAllot n), { x with staging := none })
  | none => (s, x)

/-- A SPAWN that runs its task as an inline call (R196): it repeats while its writes or tiles are awaited. -/
def State.spawnInline (s : State) (c : Cur) (x : Warp) (words : List Word) (i : Instr) : Except Trap State :=
  let (s, x) := s.keepStaging c x words
  match inlineCause (s.core c.core) x words with
  | some t => .error t
  | none =>
    match s.stageInline c.core c.slot x words x.staging with
    | .wait t id => .ok (t.putWarp c { x with staging := id, asks := id.isNone })
    | .failed t z => .ok ((t.putWarp c { x with staging := none }).take c z (wordOf i))
    | .ready id =>
      if !x.dueWrites.isEmpty then .ok s
      else .ok (s.startInline c x (x.frame c.b false 0 none) .inlineSpawn inlineHandle words id)

/-- SPAWN and SPAWNT (R197). -/
def spawnWord (i : Instr) (f : Fmt3) (s : State) (tiles : Bool) : Out :=
  issue i s fun s c x p =>
    match x.readCause p (x.closureSources f) with
    | some t => .error t
    | none =>
      if x.active p f.g f.neg == 0 then .ok (s.putWarp c ((x.pushTwo c.b false 0 0).advance c.b))
      else
        let words := x.closureWords p f
        let n := ((s.launch x.launch).map (·.header.tasks.length)).getD 0
        match closureCause n tiles words with
        | some t => .error t
        | none =>
          let t := s.tenantOf x.launch
          let k := s.core c.core
          match (if s.stages c x words || 256 ≤ (k.closures t).length then none else freeEntry (k.tableOf t)) with
          | none => s.spawnInline c x words i
          | some e =>
            let (s, x) := s.keepStaging c x words
            let r := s.pushClosure c x e words
            .ok (r.1.putWarp c (({ x with asks := false }.pushTwo c.b true 0 r.2).advance c.b))

/-- SPAWN (R197). -/
def execSpawn (f : Fmt3) (s : State) : Out := spawnWord (.spawn f) f s false

/-- SPAWNT (R197). -/
def execSpawnt (f : Fmt3) (s : State) : Out := spawnWord (.spawnt f) f s true

/-! ### Handles (R198) -/

/-- What a handle names: the inline handle, or an entry of a core. -/
inductive Named where
  | inline
  | entry (core e : Nat) (f : Future)

/-- The handle that TSELF gives (R203). -/
def Warp.tself (x : Warp) : DWord :=
  match x.task.kind with
  | .root => 0
  | .inlineSpawn => inlineHandle
  | .inlineJoin => x.task.handle
  | .deque => x.task.handle

/-- Low half of a handle, which the causes of handles report (Table 13 of R205). -/
def handleInfo (h : DWord) : Nat := h.toNat % 2 ^ 32

/-- The checks of a handle (R198), up to the generation, then the launch and the own handle where asked. A firmware core's warp has no
partition, so that every core is outside it (DEDUCED, log entry 32). -/
def State.named (s : State) (x : Warp) (h : DWord) (launch own : Bool) : Except Trap Named :=
  let bad (c : Nat) : Except Trap Named := .error (Trap.of c (handleInfo h))
  if h.toNat / 2 ^ 33 != 0 || (h.getLsbD 32 && handleInfo h != 0) then bad 0x204
  else if h.getLsbD 32 then .ok .inline
  else if handleGen h = 0 || x.fw.isSome || s.partOf (handleCore h) != some (s.tenantOf x.launch) then bad 0x204
  else
    let f := (s.core (handleCore h)).fut (s.tenantOf x.launch) (handleEntry h)
    if f.st == .free || f.gen != handleGen h then bad 0x205
    else if launch && f.launch != x.launch then bad 0x204
    else if own && h == x.tself then bad 0x206
    else .ok (.entry (handleCore h) (handleEntry h) f)

/-! ### JOIN (R198) -/

/-- The state with a closure of a tenant's deque taken by a slot's JOIN, or given back, and its ring space noted (R29). -/
def State.holdClosure (s : State) (t c : Nat) (q : Closure) (held id : Option Nat) : State :=
  let k := s.core c
  let s := s.setCore c (k.setDeque t ((k.dequeOf t).map fun z =>
    if z.isFor q.core q.entry then { z with held := held, allot := id } else z))
  s.updFut t q.core q.entry fun u => { u with st := if held.isSome then .staging else .queued }

/-- A JOIN of an entry whose closure stands in the issuing core's deque: it takes the closure out, awaits its tiles and the
writes that its SPAWN released, and runs it inline (R29, R195, R196). -/
def State.joinInline (s : State) (c : Cur) (x : Warp) (f : Fmt3) (q : Closure) : Except Trap State :=
  let t := s.tenantOf x.launch
  let k := s.core c.core
  match inlineCause k x q.words with
  | some z => .error z
  | none =>
    match s.stageInline c.core c.slot x q.words q.allot with
    | .wait u id => .ok ((u.holdClosure t c.core q (some c.slot) id).upd c fun y => { y with asks := id.isNone })
    | .failed u z => .ok ((u.holdClosure t c.core q none none).take c z (wordOf (.join f)))
    | .ready id =>
      if !q.due.isEmpty then .ok (s.holdClosure t c.core q (some c.slot) id)
      else
        let s := s.setCore c.core (k.setDeque t ((k.dequeOf t).filter fun z => !z.isFor q.core q.entry))
        let s := s.updFut t q.core q.entry fun u => { u with st := .running }
        .ok (s.startInline c x (x.frame c.b f.nw f.d.toNat (some (q.core, q.entry))) .inlineJoin q.handle q.words id)

/-- Whether a split of some warp blocked on a handle before a given order (R198). -/
def State.joinBefore (s : State) (h : DWord) (order : Nat) : Bool :=
  let before (o : Option Split) : Bool :=
    match o with
    | some p => match p.wait with
      | .join _ g n => g == h && decide (n < order)
      | _ => false
    | none => false
  s.cores.any fun k => k.2.slots.any fun t => match t.2.warp with
    | some x => before x.a || before x.b
    | none => false

/-- JOIN of an entry (R198); `order` is when it first blocked, if it has. -/
def State.joinEntry (s : State) (c : Cur) (x : Warp) (p : Split) (f : Fmt3) (h : DWord) (core e : Nat) (u : Future)
    (order : Option Nat) : Except Trap State :=
  let t := s.tenantOf x.launch
  let s := s.upd c fun y => { y with asks := y.asks && u.pending }
  let x := { x with asks := x.asks && u.pending }
  let queued := if u.pending && core == c.core then
      ((s.core c.core).dequeOf t).find? fun q => q.isFor core e && (q.held.isNone || q.held == some c.slot)
    else none
  match queued with
  | some q => s.joinInline c x f q
  | none =>
    let first := match order with
      | some n => !s.joinBefore h n
      | none => !s.joinBefore h (s.serial + 1)
    if !u.final || !first || !covers (s.die (coreDie c.core)).clock u.stamped then
      match order with
      | some _ => .ok s
      | none => .ok (s.fresh.blockAt c x p (.join f) (.join f h s.serial))
    else if u.st == .failed then .error (Trap.of u.cause u.info)
    else .ok ((s.updFut t core e Future.drop).putWarp c (x.joined c.b f.nw f.d.toNat u.value))

/-- JOIN (R198). -/
def execJoin (f : Fmt3) (s : State) : Out :=
  issue (.join f) s fun s c x p =>
    let g := x.cguard f.g f.neg
    match x.readCause p (uniSources g [f.a.toNat, f.b.toNat]) with
    | some t => .error t
    | none =>
      if !g then .ok (s.putWarp c (x.uniResult c.b p f.nw f.d.toNat false 0))
      else
        let h := x.uval p f.a.toNat
        match s.named x h true true with
        | .error t => .error t
        | .ok .inline => .ok (s.putWarp c (x.joined c.b f.nw f.d.toNat (x.uval p f.b.toNat)))
        | .ok (.entry core e u) => s.joinEntry c x p f h core e u none

/-- Whether a warp takes part in what happens to a blocked split: it runs and is not stopped (R95). -/
def Warp.unheld (x : Warp) (b : Bool) : Bool :=
  x.status == .running &&
    match x.debug with
    | .none => true
    | .asked _ => true
    | .stepping z _ => x.frozen.isSome || z == b
    | .stopped _ => false

/-- JOIN_RESUME (R198): a blocked JOIN is evaluated again. -/
def execJoinResume (c w : Nat) (b : Bool) (s : State) : Out :=
  let u : Cur := { core := c, slot := w, b := b }
  match (s.warp c w).bind fun x => (x.split b).map fun p => (x, p) with
  | none => .next s
  | some (x, p) =>
    match p.wait with
    | .join f h order =>
      if !x.unheld b then .next s
      else
        let r : Except Trap State := match s.named x h true true with
          | .error t => .error t
          | .ok .inline => .ok s
          | .ok (.entry core e v) => s.joinEntry u x p f h core e v (some order)
        match r with
        | .ok t => .next t
        | .error t => .next (s.take u t (wordOf (.join f)))
    | _ => .next s

/-! ### FTEST and FCANCEL (R199, R200) -/

/-- STATE of FTEST (Table 9 of R199). -/
def FutState.code : FutState → Nat
  | .free => 0
  | .queued => 0
  | .staging => 1
  | .runnable => 2
  | .running => 2
  | .draining => 2
  | .engine => 6
  | .resolved => 3
  | .cancelled => 4
  | .failed => 5

/-- The underlying cause of a failure (R199): that of a loader or storer, else the failure's own (DEDUCED, log entry 46). -/
def Future.underlying (f : Future) : Nat := if f.cause = 0x207 || f.cause = 0x208 then f.info % 1024 else f.cause

/-- FTEST's result (Table 9 of R199). -/
def Future.tested (f : Future) : DWord :=
  BitVec.ofNat 64 ((if f.st == .failed then f.underlying * 2 ^ 32 else 0) +
    (if f.st.code ≤ 2 then f.place * 2 ^ 23 else 0) + f.st.code)

/-- FTEST (R199): of a final state it is an acquire, which waits for what the end of the task released (R195). -/
def execFtest (f : Fmt3) (s : State) : Out :=
  issue (.ftest f) s fun s c x p =>
    let g := x.cguard f.g f.neg
    match x.readCause p (uniSources g [f.a.toNat]) with
    | some t => .error t
    | none =>
      if !g then .ok (s.putWarp c (x.uniResult c.b p f.nw f.d.toNat false 0))
      else
        match s.named x (x.uval p f.a.toNat) false false with
        | .error t => .error t
        | .ok .inline => .ok (s.putWarp c (x.uniResult c.b p.unbuffer f.nw f.d.toNat true 3))
        | .ok (.entry _ _ u) =>
          if u.final && !covers (s.die (coreDie c.core)).clock u.stamped then .ok s
          else .ok (s.putWarp c (x.uniResult c.b (if u.final then p.unbuffer else p) f.nw f.d.toNat true u.tested))

/-- The state in which an engine operation of a tenant's entry is asked to stop (R200, R295). -/
def State.cancelEngine (s : State) (t c e : Nat) : State :=
  { s with engOps := s.engOps.map fun o => if o.2.part = t ∧ o.2.fut = some (c, e) then (o.1, { o.2 with cancel := true }) else o }

/-- FCANCEL's effect on an entry and its result (R200). -/
def State.fcancel (s : State) (t c e : Nat) (u : Future) : State × Nat :=
  match u.st with
  | .queued => (s.cancelTask t c e, 0)
  | .staging => (s.cancelTask t c e, 0)
  | .engine => (s.cancelEngine t c e, 1)
  | .runnable => (s, 2)
  | .running => (s, 2)
  | .draining => (s, 2)
  | .resolved => (s.updFut t c e Future.drop, 3)
  | .cancelled => (s.updFut t c e Future.drop, 3)
  | .failed => (s.updFut t c e Future.drop, 3)
  | .free => (s, 3)

/-- FCANCEL (R200). -/
def execFcancel (f : Fmt3) (s : State) : Out :=
  issue (.fcancel f) s fun s c x p =>
    let g := x.cguard f.g f.neg
    match x.readCause p (uniSources g [f.a.toNat]) with
    | some t => .error t
    | none =>
      let done (s : State) (v : Nat) : Except Trap State :=
        .ok (s.putWarp c (x.uniResult c.b p f.nw f.d.toNat g (BitVec.ofNat 64 v)))
      if !g then done s 0
      else
        match s.named x (x.uval p f.a.toNat) true false with
        | .error t => .error t
        | .ok .inline => done s 2
        | .ok (.entry core e u) =>
          let r := s.fcancel (s.tenantOf x.launch) core e u
          done r.1 r.2

/-! ### TEXIT, DQLEN and TSELF (R201 to R203) -/

/-- TEXIT (R201). -/
def execTexit (f : Fmt3) (s : State) : Out :=
  issue (.texit f) s fun s c x p =>
    let g := x.cguard f.g f.neg
    match x.readCause p (uniSources g [f.a.toNat]) with
    | some t => .error t
    | none => .ok (if g then s.endCode c x (x.uval p f.a.toNat) else s.putWarp c (x.advance c.b))

/-- DQLEN's result (Table 10 of R202). -/
def Core.dqlen (k : Core) (t l : Nat) : DWord :=
  let free := 2048 - ((k.tableOf t).filter fun e => e.2.st != .free).length
  let q := k.closures t
  BitVec.ofNat 64 (free * 2 ^ 32 + q.length * 2 ^ 16 + (q.filter fun z => z.launch == l).length)

/-- DQLEN (R202). -/
def execDqlen (f : Fmt3) (s : State) : Out :=
  issue (.dqlen f) s fun s c x p =>
    .ok (s.putWarp c (x.uniResult c.b p f.nw f.d.toNat (x.cguard f.g f.neg)
      (s.snapshot c.core 0x34 0xFFF01FF01FF ((s.core c.core).dqlen (s.tenantOf x.launch) x.launch))))

/-- TSELF (R203). -/
def execTself (f : Fmt3) (s : State) : Out :=
  issue (.tself f) s fun s c x p =>
    .ok (s.putWarp c (x.uniResult c.b p f.nw f.d.toNat (x.cguard f.g f.neg) (s.snapshot c.core 0x35 0x1FFFFFFFF x.tself)))

end Sys2Proof.Machine
end

