-- ==== Sys2Proof/Machine/Contexts.lean ====
section
/-! DEFINITION. Saved contexts (R347 to R353): their bytes, writing and reading them, withdrawn ring operations, leases, and
parking a warp. PRIV (R349), whose layout belongs to the core, is that of DESIGN CHOICE, log entry 27. -/

namespace Sys2Proof.Machine

open Sys2Proof

/-! ### PRIV -/

/-- A number with fields placed at bit offsets. -/
def atBits (l : List (Nat × Nat)) : Nat := l.foldl (fun a e => a + e.2 * 2 ^ e.1) 0

/-- A poison mark as a 2-bit code; marks carry no other cause (R215, R254), and a corrupted value takes a fresh residue on its way
back from memory (R113). -/
def poisonCode (z : Option (BitVec 10)) : Nat :=
  match z with
  | none => 0
  | some c => if c == 0x381 then 0 else if c == 0x382 then 1 else if c == 0x144 then 2 else 3

/-- The poison mark of a code. -/
def poisonOfCode (n : Nat) : Option (BitVec 10) := if n = 0 then none else if n = 1 then some 0x382 else if n = 2 then some 0x144 else some 0x383

/-- The valid bits of latches. -/
def validBits (l : List Bool) : Nat := atBits ((indexed l).map fun e => (e.1, bit e.2))

/-- What a split still waits for after it resumes: nothing, or a phase at which it has arrived (R89). -/
def Wait.kept : Wait → Nat × Nat × Nat
  | .phase g ph => (1, g, ph)
  | .redx g ph => (2, g, ph)
  | _ => (0, 0, 0)

/-- A split's fields: counter, mask, frame, valid bits and barrier. -/
def splitFields (off : Nat) (o : Option Split) : List (Nat × Nat) :=
  match o with
  | none => []
  | some p =>
    let w := p.wait.kept
    [(off, p.pc.toNat), (off + 64, p.mask.toNat), (off + 128, p.frame.toNat), (off + 136, 1),
     (off + 137, validBits (p.l.map (·.valid))), (off + 141, validBits (p.m.map (·.valid))), (off + 145, w.1),
     (off + 147, w.2.1 % 256), (off + 160, w.2.2 % 2 ^ 64)]

/-- The uniform latches of a split. -/
def Split.ms (o : Option Split) : List Cell64 := (o.map fun p => p.m.map (·.cell)).getD []

/-- The lane latches of a split in a lane. -/
def Split.ls (o : Option Split) (l : Nat) : List Cell32 := (o.map fun p => p.l.map fun h => h.cells.getD l (Cell32.of 0)).getD []

/-- The frozen named registers of a lane (R340). -/
def Warp.frozenV (x : Warp) (z : Frozen) (l : Nat) : List Cell32 :=
  (x.lane l).v.take 24 ++ ((z.lanes[l]?).map (·.vhi)).getD []

/-- The frozen uniform registers. -/
def Warp.frozenS (x : Warp) (z : Frozen) : List Cell64 := x.s.take 24 ++ z.shi

/-- A lane's shadowed part in the frozen state. -/
def Frozen.lane (z : Frozen) (l : Nat) : LaneShadow := (z.lanes[l]?).getD { q := [], vhi := [], p := [], n := 0 }

/-- A lane's 48-byte record: latches, counter, seltag, predicates, stochastic state, and the low bits of its poison codes. -/
def Warp.laneFields (x : Warp) (z : Frozen) (l : Nat) : List (Nat × Nat) :=
  let h := z.lane l
  ((indexed (Split.ls z.a l)).map fun e => (32 * e.1, e.2.v.toNat)) ++
    ((indexed (Split.ls z.b l)).map fun e => (128 + 32 * e.1, e.2.v.toNat)) ++
    [(256, h.n.toNat), (264, (x.lane l).tag.toNat), (304, (x.lane l).sr.toNat)] ++
    ((indexed h.p).map fun e => (272 + 4 * e.1, e.2.toNat)) ++
    ((indexed (h.q ++ x.frozenV z l)).map fun e => (336 + e.1, poisonCode e.2.poison % 2))

/-- A lane's further 64 bits: the high bits of its poison codes, and the codes of its latches. -/
def Warp.laneMarks (x : Warp) (z : Frozen) (l : Nat) : List (Nat × Nat) :=
  let h := z.lane l
  ((indexed (h.q ++ x.frozenV z l)).map fun e => (e.1, poisonCode e.2.poison / 2)) ++
    ((indexed (Split.ls z.a l)).map fun e => (48 + 2 * e.1, poisonCode e.2.poison)) ++
    ((indexed (Split.ls z.b l)).map fun e => (56 + 2 * e.1, poisonCode e.2.poison))

/-- The group memberships of a slot with its arrivals: group number, whether it has arrived, and the open phase (R87, R89). -/
def Core.memberships (k : Core) (launch w : Nat) : List (Nat × Bool × Nat) :=
  (k.groups.filter fun g => g.launch == launch && g.members.getLsbD w).map fun g => (g.image, g.arrived.getLsbD w, g.phase)

/-- PRIV of a frozen warp: 1,024 bytes and 48 for each lane, as one number. -/
def Warp.priv (x : Warp) (z : Frozen) (members : List (Nat × Bool × Nat)) (inlineArea : Nat) : Nat :=
  atBits (splitFields 0 z.a ++ splitFields 256 z.b ++
    ((indexed (Split.ms z.a)).map fun e => (512 + 64 * e.1, e.2.v.toNat)) ++
    ((indexed (Split.ms z.b)).map fun e => (768 + 64 * e.1, e.2.v.toNat)) ++
    [(1024, z.c.toNat), (1536, x.fpc.toNat), (1600, x.gang.toNat), (1664, x.splitSp.toNat), (1728, z.spillBase % 2 ^ 32),
     (1760, z.depth % 256), (1768, bit z.inB), (2560, inlineArea % 2 ^ 57)] ++
    ((indexed z.loops).flatMap fun e =>
      [(1040 + 160 * e.1, e.2.count.toNat), (1072 + 160 * e.1, e.2.start.toNat), (1136 + 160 * e.1, e.2.stop.toNat)]) ++
    ((z.frames.map (·.1) ++ z.away).map fun e => (1792 + e, 1)) ++
    ((indexed (x.armed.take 4)).map fun e => (2048 + 80 * e.1, 1 + e.2.1 % 256 * 2 + e.2.2 % 2 ^ 64 * 512)) ++
    ((indexed (members.take 4)).map fun e =>
      (2368 + 48 * e.1, 1 + e.2.1 % 256 * 2 + bit e.2.2.1 * 512 + e.2.2.2 % 2 ^ 32 * 1024)) ++
    ((indexed z.k).map fun e => (2624 + 2 * e.1, poisonCode e.2.poison)) ++
    ((indexed (x.frozenS z)).map fun e => (2656 + 2 * e.1, poisonCode e.2.poison)) ++
    ((indexed (Split.ms z.a)).map fun e => (2720 + 2 * e.1, poisonCode e.2.poison)) ++
    ((indexed (Split.ms z.b)).map fun e => (2728 + 2 * e.1, poisonCode e.2.poison)) ++
    (List.range x.width).flatMap fun l =>
      ((x.laneMarks z l).map fun e => (4096 + 64 * l + e.1, e.2)) ++
      (x.laneFields z l).map fun e => (8192 + 384 * l + e.1, e.2))

/-- Bytes of PRIV (Table 6 of R349). -/
def privBytes (w : Nat) : Nat := 1024 + 48 * w

/-! ### The save area (R349) -/

/-- The next multiple of 128. -/
def roundUp (n : Nat) : Nat := (n + 127) / 128 * 128

/-- The offsets of the sections K, V, S, PRIV and LEASE (Table 6). -/
def ctxK (w : Nat) : Nat := 128 + 64 * w
/-- V. -/
def ctxV (w : Nat) : Nat := ctxK w + 128
/-- S. -/
def ctxS (w nv : Nat) : Nat := roundUp (ctxV w + 4 * w * nv)
/-- PRIV. -/
def ctxPriv (w nv ns : Nat) : Nat := roundUp (ctxS w nv + 8 * ns)
/-- LEASE. -/
def ctxLease (w nv ns : Nat) : Nat := roundUp (ctxPriv w nv ns + privBytes w)

/-- One bit of CRC-32C, from the low end. -/
def crcBit (r : Nat) : Nat := if r % 2 = 1 then (r / 2) ^^^ 0x82F63B78 else r / 2

/-- CRC-32C of a byte string. -/
def crc32c (b : List Byte) : Nat :=
  (b.foldl (fun r x => (List.range 8).foldl (fun r _ => crcBit r) (r ^^^ x.toNat)) 0xFFFFFFFF) ^^^ 0xFFFFFFFF

/-- WIDTHCODE of a width. -/
def widthCode (w : Nat) : Nat := if w = 16 then 0 else if w = 32 then 1 else 2

/-- The ring of a ring operation, and its words per lane. -/
def Op.ringOf (o : Op) : Nat × Nat :=
  match o.kind with
  | .push r e => (r, e)
  | .pop r e => (r, e)
  | .peek r e => (r, e)
  | _ => (0, 0)

/-- The record of a withdrawn ring operation (Table 6): captured data follow a push, zeros a pop or peek. -/
def Op.record (o : Op) : List Byte :=
  let r := o.ringOf
  toBytes 4 o.word.toNat ++ toBytes 1 r.1 ++ toBytes 1 o.accs.length ++ toBytes 1 r.2 ++ List.replicate 9 0 ++
    o.accs.flatMap fun a => (a.data.map (·.2) ++ List.replicate (4 * r.2) 0).take (4 * r.2)

/-- A section of a context: its offset and its bytes. -/
abbrev Section := Nat × List Byte

/-- The sections of a frozen warp's context (Tables 6 and 7), and its length; `stop` for one written at a debug stop. -/
def State.sections (s : State) (c : Cur) (x : Warp) (z : Frozen) (stop : Bool) : List Section × Nat :=
  let k := s.core c.core
  let d := coreDie c.core
  let w := x.width
  let now := s.timeOf d
  let area := ((s.slot c.core c.slot).map (·.area)).getD 0
  let priv := toBytes (privBytes w) (x.priv z (k.memberships x.launch c.slot) (area + 0x20000))
  let leases := (x.recent.filterMap fun l => (get k.leases l).bind fun t => if now < t then some (l, t) else none).take 32
  let rings := x.withdrawn.flatMap Op.record
  let o := ctxLease w x.nv x.ns
  let endLease := o + 16 * leases.length
  let len := if rings.isEmpty then endLease else roundUp endLease + rings.length
  let header := [0x56, 0x43, 0x58, 0x31] ++ toBytes 2 1 ++ toBytes 1 (widthCode w) ++
    toBytes 1 (bit (z.a.isSome && z.b.isSome) + 2 * bit stop) ++ toBytes 1 x.nv ++ toBytes 1 x.ns ++
    toBytes 1 leases.length ++ toBytes 1 x.withdrawn.length ++ toBytes 4 len ++
    toBytes 8 (((s.launch x.launch).map Launch.ident).getD 0).toNat ++ toBytes 8 now ++ toBytes 2 c.core ++
    toBytes 1 c.slot ++ [0] ++ toBytes 4 (crc32c priv) ++ toBytes 8 x.tcause.toNat ++ toBytes 8 x.tpc.toNat ++
    toBytes 8 x.tmask.toNat ++ toBytes 8 x.tinfo.toNat ++ List.replicate 56 0
  let cell (o : Option Cell32) : List Byte := toBytes 4 ((o.map Cell32.v).getD 0).toNat
  ([(0, header),
    (128, (List.range 16).flatMap fun i => (List.range w).flatMap fun l => cell ((z.lane l).q[i]?)),
    (ctxK w, (z.k.take 16).flatMap fun e => toBytes 8 e.v.toNat),
    (ctxV w, (List.range x.nv).flatMap fun i => (List.range w).flatMap fun l => cell ((x.frozenV z l)[i]?)),
    (ctxS w x.nv, ((x.frozenS z).take x.ns).flatMap fun e => toBytes 8 e.v.toNat),
    (ctxPriv w x.nv x.ns, priv),
    (o, leases.flatMap fun e => toBytes 8 (128 * e.1) ++ toBytes 8 e.2)] ++
   (if rings.isEmpty then [] else [(roundUp endLease, rings)]), len)

/-- Runs of bytes written at offsets from a virtual address. -/
def State.writeRuns (s : State) (c : Cur) (x : Warp) (va : Nat) (l : List Section) : Sync Unit :=
  l.foldl (fun r e => r.bind fun t _ => t.writeVa c x ((va + e.1) % 2 ^ 57) e.2) (.done s ())

/-- The state in which a frozen warp's split area is defined (R82), and its context is written at an area (R347): every page of the
context is checked before any of its bytes moves. -/
def State.writeCtx (s : State) (c : Cur) (x : Warp) (z : Frozen) (area : Nat) (stop : Bool) : Sync Unit :=
  (s.storeArea c x z.frames (z.away ++ x.away ++ x.awayBelow) z.spillBase).bind fun t y =>
    let t := t.putWarp c y
    let r := t.sections c y z stop
    match t.pagesOf (t.whoOf c.core y) (t.tlb c.core) .write area (linePieces area r.2) with
    | .error e => .cause t e
    | .ok _ => t.writeRuns c y area r.1

/-! ### Draining (R347) -/

/-- Whether a warp has drained: its batches are complete, and its counters are 0 but for ring operations not performed, which are
withdrawn. -/
def State.drained (s : State) (c : Cur) (x : Warp) : Bool := (s.core c.core).batchesDone c.slot && x.ops.isEmpty

/-- The state in which a warp that drains has its ring operations that are not performed withdrawn, in issue order (R219, R347):
those that stand behind them may then be performed. -/
def State.withdrawRings (s : State) (c : Cur) (x : Warp) : State × Warp :=
  let l := x.ops.filter Op.withdrawable
  let y := { x with ops := x.ops.filter fun o => !o.withdrawable, withdrawn := x.withdrawn ++ l }
  ((s.setCore c.core ((s.core c.core).withdraw (l.map (·.id)))).putWarp c y, y)

/-! ### Reading a context back (R350) -/

/-- A number in bytes. -/
def numAt (b : List Byte) (off n : Nat) : Nat := ofBytes ((b.drop off).take n)

/-- The end of n ring records from an offset. -/
def ringEnd (b : List Byte) : Nat → Nat → Nat
  | 0, off => off
  | n + 1, off => ringEnd b n (off + 16 + 4 * numAt b (off + 5) 1 * numAt b (off + 6) 1)

/-- The length that NLEASE and NRING give a context. -/
def ctxLength (w nv ns : Nat) (b : List Byte) : Nat :=
  let l := ctxLease w nv ns + 16 * numAt b 0x0A 1
  let n := numAt b 0x0B 1
  if n = 0 then l else ringEnd b n (roundUp l)

/-- The first bad field of a header that shows before the rest is read (R350). -/
def headerFault (w nv ns : Nat) (b : List Byte) : Option Nat :=
  let l := ctxLease w nv ns + 16 * numAt b 0x0A 1
  let len := numAt b 0x0C 4
  if b.take 4 != [0x56, 0x43, 0x58, 0x31] then some 0
  else if numAt b 4 2 != 1 then some 4
  else if numAt b 6 1 != widthCode w then some 6
  else if numAt b 8 1 != nv then some 8
  else if numAt b 9 1 != ns then some 9
  else if 32 < numAt b 0x0A 1 || 32 < numAt b 0x0B 1 || 65536 < len || len < l || (numAt b 0x0B 1 == 0 && len != l) then some 0x0C
  else none

/-- The first bad field of a whole context (R350). -/
def ctxFault (w nv ns : Nat) (ident : DWord) (b : List Byte) : Option Nat :=
  if ctxLength w nv ns b != numAt b 0x0C 4 then some 0x0C
  else if numAt b 0x10 8 != ident.toNat then some 0x10
  else if crc32c ((b.drop (ctxPriv w nv ns)).take (privBytes w)) != numAt b 0x24 4 then some 0x24
  else none

/-- A loaded cell; the mark of an operation that is among those to be submitted again stays. -/
def loadCell (v poison : Nat) (ops : List Op) (old : Option Cell32) : Cell32 :=
  { v := BitVec.ofNat 32 v, pend := (old.bind (·.pend)).filter fun e => ops.any fun o => o.id == e.op, poison := poisonOfCode poison }

/-- A loaded uniform cell. -/
def loadUni (v poison : Nat) : Cell64 := { v := BitVec.ofNat 64 v, pend := none, poison := poisonOfCode poison }

/-- A split that PRIV holds at a bit offset; m and l give its latches. -/
def loadSplit (v off : Nat) (m : Nat → Cell64) (l : Nat → List Cell32) : Option Split :=
  let n (at_ len : Nat) : Nat := bitsOf len (off + at_) v
  if n 136 1 = 0 then none
  else
    let g := n 147 8
    some {
      pc := BitVec.ofNat 57 (n 0 57) &&& ~~~3, mask := BitVec.ofNat 64 (n 64 64), frame := BitVec.ofNat 8 (n 128 8),
      l := (List.range 4).map fun i => { valid := n (137 + i) 1 == 1, cells := l i },
      m := (List.range 4).map fun i => { valid := n (141 + i) 1 == 1, cell := m i },
      wait := if n 145 2 = 1 then .phase g (n 160 64) else if n 145 2 = 2 then .redx g (n 160 64) else .none, buf := [], cur := [] }

/-- The memberships that PRIV names. -/
def privMembers (v : Nat) : List (Nat × Bool × Nat) :=
  (List.range 4).filterMap fun i =>
    let e := bitsOf 48 (2368 + 48 * i) v
    if e % 2 = 1 then some (bitsOf 8 1 e, flag 9 e, bitsOf 32 10 e) else none

/-- The armings that PRIV names. -/
def privArmed (v : Nat) : List (Nat × Nat) :=
  (List.range 4).filterMap fun i =>
    let e := bitsOf 80 (2048 + 80 * i) v
    if e % 2 = 1 then some (bitsOf 8 1 e, bitsOf 64 9 e) else none

/-- The first group number that a slot lacks, or whose table entry cannot hold the context's barrier state (R350). -/
def Core.groupFault (k : Core) (launch w v : Nat) : Option Nat :=
  let low (g ph : Nat) : Bool := match k.group launch w g with
    | none => true
    | some e => decide (e.phase < ph)
  match (privMembers v).find? fun e => low e.1 e.2.2 with
  | some e => some e.1
  | none => ((privArmed v).find? fun e => low e.1 e.2).map (·.1)

/-- A core whose group table shows a slot's arrivals as a context has them: those of a phase that is still open (R89). -/
def Core.setArrivals (k : Core) (launch w v : Nat) : Core :=
  (privMembers v).foldl (fun k e => k.mapGroup launch w e.1 fun g =>
    if !e.2.1 then g.leave w else if g.phase == e.2.2 && !g.arrived.getLsbD w then g.arrive w [] else g) k

/-- Ring operation n of a context as its record gives it (Table 6). The lanes and the destination of a pop or peek are not in a record:
where the warp itself withdrew such an operation, it is that one; else it moves the ring and delivers nothing (DEDUCED, log
entry 28). -/
def ringOp (b : List Byte) (id off : Nat) (old : Option Op) : Option Op :=
  let word : Word := BitVec.ofNat 32 (numAt b off 4)
  let r := numAt b (off + 4) 1
  let l := numAt b (off + 5) 1
  let e := numAt b (off + 6) 1
  let data (i : Nat) : List Byte := (b.drop (off + 16 + 4 * e * i)).take (4 * e)
  let op (k : OpKind) (data : Nat → List Byte) : Op :=
    { id := id, path := 0, kind := k, word := word, scope := 1, acq := false, rel := false,
      accs := (List.range l).map fun i => ringAcc i 0 (data i), done := false }
  let own := old.filter fun o => o.word == word && o.ringOf == (r, e) && o.accs.length == l
  match decodeHead word.toNat, own with
  | some (.fpush _), some o =>
    some { o with accs := (indexed o.accs).map fun z => { z.2 with data := indexed (data z.1) } }
  | some (.fpush _), none => some (op (.push r e) data)
  | some (.fpop _), some o => some o
  | some (.fpop _), none => some (op (.pop r e) fun _ => [])
  | some (.fpeek _), some o => some o
  | some (.fpeek _), none => some (op (.peek r e) fun _ => [])
  | _, _ => none

/-- The ring operations of a context's records, from an offset on: `old` are those that the warp holds withdrawn. -/
def ringOps (b : List Byte) (serial : Nat) : Nat → Nat → List Op → List Op
  | 0, _, _ => []
  | n + 1, off, old =>
    (ringOp b serial off old.head?).toList ++
      ringOps b (serial + 1) n (off + 16 + 4 * numAt b (off + 5) 1 * numAt b (off + 6) 1) (old.drop 1)

/-- Loop level i of PRIV. -/
def privLoop (v i : Nat) : Loop :=
  { count := BitVec.ofNat 32 (bitsOf 32 (1040 + 160 * i) v), start := BitVec.ofNat 57 (bitsOf 57 (1072 + 160 * i) v) &&& ~~~3,
    stop := BitVec.ofNat 57 (bitsOf 57 (1136 + 160 * i) v) &&& ~~~3 }

/-- An inline task's caller as a context holds it: without a fetched word (R285). -/
def InlineFrame.unbuffer (f : InlineFrame) : InlineFrame :=
  let drop (p : Split) : Split := { p with buf := [], cur := [] }
  { f with a := f.a.map drop, b := f.b.map drop, loopBuf := [] }

/-- A warp with its frozen state and trap registers loaded from a context's bytes (R350); `ops` are its ring operations. -/
def Warp.loadCtx (x : Warp) (z : Frozen) (b : List Byte) (ops : List Op) (leases : List (Nat × Nat)) (area : Nat) : Warp :=
  let w := x.width
  let priv := (b.drop (ctxPriv w x.nv x.ns)).take (privBytes w)
  let v := ofBytes priv
  let lane (l len at_ : Nat) : Nat := bitsOf len (8192 + 384 * l + at_) v
  let mark (l i : Nat) : Nat := lane l 1 (336 + i) + 2 * bitsOf 1 (4096 + 64 * l + i) v
  let old (l : Nat) : List Cell32 := (z.lane l).q ++ x.frozenV z l
  let q (l : Nat) : List Cell32 := (List.range 16).map fun i => loadCell (numAt b (128 + 4 * (w * i + l)) 4) (mark l i) ops ((old l)[i]?)
  let vs (l : Nat) : List Cell32 := (List.range 32).map fun i =>
    if i < x.nv then loadCell (numAt b (ctxV w + 4 * (w * i + l)) 4) (mark l (16 + i)) ops ((old l)[16 + i]?) else Cell32.of 0
  let ss : List Cell64 := (List.range 32).map fun i =>
    if i < x.ns then loadUni (numAt b (ctxS w x.nv + 8 * i) 8) (bitsOf 2 (2656 + 2 * i) v) else Cell64.of 0
  let split (off at_ mOff : Nat) : Option Split :=
    loadSplit v off (fun i => loadUni (bitsOf 64 (mOff + 64 * i) v) (bitsOf 2 (2720 + off / 32 + 2 * i) v)) fun i =>
      (List.range w).map fun l => loadCell (lane l 32 (at_ + 32 * i)) (bitsOf 2 (4096 + 64 * l + 48 + off / 32 + 2 * i) v) [] none
  let lanes : List LaneShadow := (List.range w).map fun l =>
    ⟨q l, (vs l).drop 24, (List.range 7).map fun i => BitVec.ofNat 4 (lane l 4 (272 + 4 * i)), BitVec.ofNat 8 (lane l 8 256)⟩
  { x with
    tcause := BitVec.ofNat 64 (numAt b 0x28 8) &&& 0x3BFF, tpc := BitVec.ofNat 64 (numAt b 0x30 8) &&& 0x01FFFFFFFFFFFFFC, tmask := BitVec.ofNat 64 (numAt b 0x38 8),
    tinfo := BitVec.ofNat 64 (numAt b 0x40 8),
    lanes := mapPlace (fun l a => { a with v := (vs l).take 24 ++ a.v.drop 24, tag := BitVec.ofNat 8 (lane l 8 264),
                                           sr := BitVec.ofNat 32 (lane l 32 304) }) 0 x.lanes,
    s := ss.take 24 ++ x.s.drop 24, fpc := BitVec.ofNat 64 (bitsOf 64 1536 v), gang := BitVec.ofNat 64 (bitsOf 64 1600 v),
    splitSp := BitVec.ofNat 64 (bitsOf 64 1664 v), armed := privArmed v, spills := x.spills - z.spillBase + bitsOf 32 1728 v,
    savedArea := some area, dirty := false, withdrawn := ops, inline := (x.inline.drop (x.inline.length - bitsOf 8 1760 v)).map InlineFrame.unbuffer,
    frozen := some { z with
      inB := flag 1768 v, lanes := lanes,
      k := (List.range 16).map fun i => loadUni (numAt b (ctxK w + 8 * i) 8) (bitsOf 2 (2624 + 2 * i) v),
      shi := ss.drop 24, c := BitVec.ofNat 7 (bitsOf 7 1024 v), a := split 0 0 512, b := split 256 128 768,
      loops := (List.range 3).map (privLoop v),
      loopBuf := [], spillBase := bitsOf 32 1728 v, frames := [], away := (List.range 255).filter fun i => flag (1792 + i) v,
      depth := min (bitsOf 8 1760 v) x.inline.length, loaded := leases, saved := true } }

/-- The leases that a context records, where it was saved on the loading core's die (R353). -/
def ctxLeases (c w nv ns : Nat) (b : List Byte) : List (Nat × Nat) :=
  if coreDie (numAt b 0x20 2) ≠ coreDie c then []
  else (List.range (numAt b 0x0A 1)).map fun i => (numAt b (ctxLease w nv ns + 16 * i) 8, numAt b (ctxLease w nv ns + 16 * i + 8) 8)

/-- A warp that does not issue before a cycle of its die's time base (R139). -/
def Warp.notBefore (x : Warp) (n : Nat) : Warp := { x with noIssueBefore := max x.noIssueBefore n }

/-- The state with n serial numbers taken. -/
def State.skip (s : State) (n : Nat) : State := { s with serial := s.serial + n }

/-- A warp's frozen state loaded from a context at an area (R350); a context of another die holds the warp until the die's time
base has passed its save (R139). -/
def State.readCtx (s : State) (c : Cur) (x : Warp) (z : Frozen) (area : Nat) : Sync Warp :=
  let ident := ((s.launch x.launch).map Launch.ident).getD 0
  (s.readVa c x area 128).bind fun s h =>
    match headerFault x.width x.nv x.ns h with
    | some n => .cause s (Trap.of 0x304 n)
    | none =>
      (s.readVa c x area (numAt h 0x0C 4)).bind fun s b =>
        match ctxFault x.width x.nv x.ns ident b with
        | some n => .cause s (Trap.of 0x304 n)
        | none =>
          let v := ofBytes ((b.drop (ctxPriv x.width x.nv x.ns)).take (privBytes x.width))
          match (s.core c.core).groupFault x.launch c.slot v with
          | some g => .cause s (Trap.of 0x303 g)
          | none =>
            let off := roundUp (ctxLease x.width x.nv x.ns + 16 * numAt b 0x0A 1)
            let n := numAt b 0x0B 1
            let y := x.loadCtx z b (ringOps b s.serial n off x.withdrawn) (ctxLeases c.core x.width x.nv x.ns b) area
            let y := if coreDie (numAt b 0x20 2) = coreDie c.core then y else y.notBefore (numAt b 0x18 8 + 1)
            .done ((s.skip n).setCore c.core ((s.core c.core).setArrivals x.launch c.slot v)) y

/-! ### Leases of a restored warp (R353) -/

/-- The state in which a restored warp's saved leases are checked: one that is running still is filled into the core's L0. -/
def State.checkLeases (s : State) (c : Nat) (l : List (Nat × Nat)) : State :=
  let now := s.timeOf (coreDie c)
  l.foldl (fun s e =>
    if e.2 ≤ now then s
    else
      let line := e.1 / 128
      let t := (s.fillL1 c line).lease c line
      let k := t.core c
      t.setCore c { k with leases := mapAt k.leases line fun z => min z (min e.2 (now + 1024)) }) s

/-! ### Parking (R351, R352) -/

/-- A core whose array is no longer stalled, where the handler that a slot's warp ends was entered for 0x243 (R322). -/
def Core.clearStall (k : Core) (w cause : Nat) : Core :=
  let m := k.matrix
  if cause = 0x243 && m.stall.owner == w && m.stall.stalled then
    { k with matrix := { m with stall := { m.stall with stalled := false } } }
  else k

/-- The state in which a slot's JOIN no longer holds a closure: it stands in the deque again, its ring space freed (R29). -/
def State.freeHeld (s : State) (t c w : Nat) : State :=
  ((s.core c).dequeOf t).foldl (fun s q =>
    if q.held == some w then
      (s.setCore c ((s.core c).unstage q)).holdClosure t c q none none
    else s) s

/-- The context memory in use: that of every slot, and what parked contexts keep. -/
def State.areas (s : State) : List Nat :=
  (s.cores.flatMap fun k => k.2.slots.map fun t => t.2.area) ++ (s.parked.filter fun e => e.2.out).map fun e => e.2.base

/-- The lowest n units of 256 KiB of a context pool that nothing uses (R368, DESIGN CHOICE, log entry 26). -/
def State.newAreas (s : State) (pool n : Nat) : List Nat :=
  let used := s.areas
  (((List.range (used.length + n)).map fun i => (pool + 0x40000 * i) % 2 ^ 57).filter fun a => !used.contains a).take n

/-- A slot that has been given up by what was parked on it: a free slot of its launch, with context memory of its own. -/
def Slot.vacated (t : Slot) (area : Nat) : Slot := { t with wg := none, windex := 0, use := .free, warp := none, task := none, area := area }

/-- Whether every warp of a workgroup is parked (R352). -/
def Core.allParked (k : Core) (l i : Nat) : Bool :=
  k.slots.all fun t => t.2.launch != l || t.2.wg != some i || t.2.use == .parked

/-- The bytes of an allocation (R211). -/
def Core.allocBytes (k : Core) (a : Alloc) : List Byte :=
  (List.range a.len).map fun i => ((placeIn a.macros (a.base + i)).map (memGet k.sram)).getD 0

/-- What the core of a workgroup keeps of it when it is lifted: its bytes, its entries, and its slots by warp index. -/
def Core.liftedOf (k : Core) (c l i : Nat) : Lifted :=
  { launch := l, index := i, core := c,
    bytes := ((k.allocs.find? fun a => a.launch == l && a.wg == i).map k.allocBytes).getD [],
    groups := k.groups.filter fun g => g.launch == l && g.wg == some i,
    slots := (k.slots.filter fun t => t.2.launch == l && t.2.wg == some i).map fun t => (t.2.windex, t.1),
    xpubs := (k.wgs.filter fun g => g.launch == l && g.index == i).flatMap (·.xpubs) }

/-- The state in which a workgroup all of whose warps are parked is lifted from its core (R352; DEDUCED, log entry 74): its
scratchpad bytes are copied out, and its allocation, slots and per-workgroup entries are free. One that has used a ring stays (R219). -/
def State.lift (s : State) (c l i : Nat) : State :=
  let k := s.core c
  if !k.allParked l i || !k.wgs.any (fun g => g.launch == l && g.index == i && !g.rings) then s
  else
    let r := k.liftedOf c l i
    let areas := s.newAreas (((s.launch l).map (·.pool)).getD 0) r.slots.length
    let mine (e : Nat × Parked) : Bool := e.2.launch == l && e.2.wg == some i
    let slots := (indexed r.slots).foldl (fun t z => mapAt t z.2.2 fun u => u.vacated (areas.getD z.1 0)) k.slots
    let k := (s.parked.filter mine).foldl (fun k e => k.departGroups l e.2.slot e.1) k
    let k := { k with
      slots := slots, allocs := k.allocs.filter fun a => !(a.launch == l && a.wg == i),
      wgs := k.wgs.filter fun g => !(g.launch == l && g.index == i),
      groups := k.groups.filter fun g => !(g.launch == l && g.wg == some i) }
    { s.setCore c k with lifted := s.lifted ++ [r],
                         parked := s.parked.map fun e => if mine e then (e.1, { e.2 with out := true }) else e }

/-- The state in which the warp of a slot, in its handler with its context saved, is parked: its slot is kept for it while another
warp of its workgroup is placed there; one that runs a task on a free slot of its launch gives it up (R351, R352). -/
def State.park (s : State) (c : Cur) (x : Warp) : State :=
  let s := s.freeHeld (s.tenantOf x.launch) c.core c.slot
  let s := match x.staging with
    | some a => s.setCore c.core ((s.core c.core).freeAllot a)
    | none => s
  match s.slot c.core c.slot with
  | none => s
  | some t =>
    let y := { x with status := .parked, req := x.req.filter fun r => !isPreempt r, staging := none, asks := false }
    let e : Parked := { launch := x.launch, wg := t.wg, windex := t.windex, core := c.core, slot := c.slot,
                        area := x.savedArea.getD 0, base := t.area, out := t.wg.isNone, warp := y }
    let n := s.serial
    let r := { s.fresh with parked := put s.parked n e }
    match t.wg with
    | some i => (r.setSlot c.core c.slot { t with use := .parked, warp := none }).lift c.core x.launch i
    | none =>
      let r := r.setCore c.core ((r.core c.core).departGroups x.launch c.slot n)
      let area := ((r.newAreas (((s.launch x.launch).map (·.pool)).getD 0) 1).headD 0)
      r.setSlot c.core c.slot (t.vacated area)

/-! ### Stopping without a handler (R343, R355) -/

/-- The split that a delivered cause names: slot A's, or slot B's when A is empty (R339). -/
def Warp.first (x : Warp) : Bool := x.a.isNone

/-- A warp frozen as it stands, with no handler split. -/
def Warp.freeze (x : Warp) (cause : Nat) : Warp := { x.enter x.first cause 0 0 with a := none }

/-- A warp back from a frozen state, each split where it stood. -/
def Warp.unfreeze (x : Warp) (z : Frozen) : Warp :=
  { x.thaw z with a := z.a.map Split.resume, b := z.b.map Split.resume }

/-- The context area of a slot (R347; DESIGN CHOICE, log entry 26). -/
def State.ownArea (s : State) (c : Cur) : Nat := (((s.slot c.core c.slot).map (·.area)).getD 0 + 0x10000) % 2 ^ 57

end Sys2Proof.Machine
end

