-- ==== Sys2Proof/Machine/Async.lean ====
section
/-! DEFINITION. Delivery of asynchronous causes at a word boundary (R342): debug stops (R355, R95), 0x243 of a stall that the
warp owns (R321) and pre-emption causes (R337, R343). -/

namespace Sys2Proof.Machine

open Sys2Proof

/-! ### Debug stops -/

/-- The split that is to count as the stopped one, where a stop of a warp is due: one was asked for, or a stepped word has been
issued and is done; not in a handler (R355, R95). -/
def Warp.stopDue (x : Warp) : Option Bool :=
  if x.frozen.isSome then none
  else match x.debug with
    | .asked b => some b
    | .stepping b issued => if issued && x.stepDone b then some b else none
    | _ => none

/-- The state in which a core in core-stop mode has asked every other warp to stop (R355). -/
def State.coreStop (s : State) (c : Cur) : State :=
  let k := s.core c.core
  if k.dbg.getLsbD 2 then
    s.setCore c.core { k with slots := k.slots.map fun t =>
      (t.1, if t.1 = c.slot then t.2 else { t.2 with warp := t.2.warp.map Warp.askStop }) }
  else s

/-- The state in which a drained warp has made a debug stop: its context is written with FLAGS bit 1, and it stays frozen; until it
has drained, it waits. -/
def State.stopWarp (s : State) (c : Cur) (x : Warp) (b : Bool) : State :=
  let r := s.withdrawRings c x
  if !r.1.drained c r.2 then r.1
  else
    let b := if (x.split b).isSome then b else !b
    let y := { r.2.freeze 0 with debug := .stopped b }
    match y.frozen with
    | none => s
    | some z =>
      match (r.1.putWarp c y).writeCtx c y z (s.ownArea c) true with
      | .wait => r.1
      | .cause u _ => ((r.1.putWarp c y).keepLog u).coreStop c
      | .done u _ => u.coreStop c

/-! ### Pre-emption -/

/-- The order in which pending pre-emption causes are tested (R342). -/
def preemptOrder : List Nat := [0x3C1, 0x3C2, 0x301, 0x302]

/-- Whether the residency that 0x302 needs has been reached (R354). -/
def State.resident (s : State) (c : Nat) (w : Nat) : Bool :=
  match s.slot c w with
  | none => true
  | some t => (s.core c).wgs.all fun g => !(g.launch == t.launch && some g.index == t.wg) ||
      decide (g.placed + (s.die (coreDie c)).minres ≤ s.timeOf (coreDie c))

/-- The first pending pre-emption cause of a warp that may be delivered now (R342, R320). -/
def State.duePreempt (s : State) (c : Cur) (x : Warp) : Option Nat :=
  if (s.core c.core).batchesDone c.slot then
    preemptOrder.find? fun r => x.req.contains r && (r != 0x302 || s.resident c.core c.slot)
  else none

/-- A warp whose request for a cause has been delivered. -/
def Warp.served (x : Warp) (cause : Nat) : Warp := { x with req := x.req.filter fun r => r != cause }

/-- The state in which a launch has failed by a cause that a warp's save raised on its behalf (R343). -/
def State.failSave (s : State) (c : Cur) (x : Warp) (t : Trap) : State :=
  (s.putWarp c { x with status := .failed }).failLaunch x.launch t.cause
    [tcauseOf t.cause false false x.first, x.tpc, x.tmask, BitVec.ofNat 64 (t.info % 2 ^ 32 * 2 ^ 32), x.tcause]
    (some (c.core, c.slot))

/-- The state after the core has performed `SAVEC #0` and SIGS for a warp without a handler (R343); it waits for the counters. -/
def State.parkFor (s : State) (c : Cur) (x : Warp) (cause : Nat) : State :=
  let r := s.withdrawRings c x
  let b := x.first
  match x.split b with
  | none => s
  | some p =>
    if !r.1.drained c r.2 then r.1
    else
      let area := s.ownArea c
      let y := { ((r.2.served cause).freeze cause).setTrapRegs (tcauseOf cause false true b) p.pc p.mask 0 with
                 savedArea := some area, dirty := false }
      match y.frozen with
      | none => s
      | some z =>
        let y := { y with frozen := some { z with saved := true } }
        match (r.1.putWarp c y).writeCtx c y z area false with
        | .wait => r.1
        | .cause u e => ((r.1.putWarp c y).keepLog u).failSave c y e
        | .done u _ => match u.warp c.core c.slot with
          | some y => u.park c y
          | none => u

/-- The state in which a pre-emption cause is delivered to a warp: its handler starts, or the core parks it (R339,
R343; DEDUCED, log entry 52). -/
def State.preempt (s : State) (c : Cur) (x : Warp) (cause : Nat) : State :=
  match (s.launch x.launch).bind Launch.trapEntry with
  | none => s.parkFor c x cause
  | some e =>
    let b := x.first
    match x.split b with
    | none => s
    | some p =>
      s.putWarp c (((x.served cause).enter b cause e p.mask).setTrapRegs (tcauseOf cause false true b) p.pc p.mask 0)

/-! ### Delivery -/

/-- Whether the warp of a slot is owed 0x243 (R321, R323). -/
def Core.owes (k : Core) (w : Nat) (x : Warp) : Bool := x.miss.isSome || (!k.matrix.stall.taken && k.matrix.stall.owner == w)

/-- The state in which a warp takes the 0x243 of an abandoned operation, or that of the stall it owns (R321, R323). -/
def State.takeMiss (s : State) (c : Cur) (x : Warp) : State :=
  let k := s.core c.core
  let r := k.matrix.stall
  match x.miss with
  | some m => (s.putWarp c { x with miss := none }).take { c with b := x.first } (Trap.of 0x243 m.1) m.2
  | none =>
  let s := s.setCore c.core { k with matrix := { k.matrix with stall := { r with taken := true } } }
  s.take { c with b := x.first } (Trap.of 0x243 r.info) r.word

/-- What is delivered at a boundary of a warp outside a handler, before the word of a split issues (R342): the state after it,
or none. A stop or a save that waits for the warp's counters lets no word issue. -/
def State.deliver (s : State) (c : Cur) : Option State :=
  match s.warp c.core c.slot with
  | none => none
  | some x =>
    if x.frozen.isSome || x.fw.isSome || x.status != .running then none
    else
      match x.stopDue with
      | some b => some (s.stopWarp c x b)
      | none =>
        if x.debug != .none then none
        else if (s.core c.core).owes c.slot x then some (s.takeMiss c x)
        else (s.duePreempt c x).map (s.preempt c x)

end Sys2Proof.Machine
end

