-- ==== Sys2Proof/Machine/Boundary.lean ====
section
/-! DEFINITION. A word boundary: fetching and checking the word, what is delivered before it (R342), issuing it, and the time
that passes at a step (R16, R392). -/

namespace Sys2Proof.Machine

open Sys2Proof

/-- A decode cause with the word bit that TINFO [39:32] receives (R54). -/
def decodeTrap (cause bit : Nat) : Trap := Trap.of cause bit

/-- What stands at a split's program counter: it waits, a cause of the fetch or decode with the word, or an instruction. -/
inductive AtPc where
  | wait
  | cause (s : State) (t : Trap) (word : Word)
  | ready (s : State) (i : Instr) (words : List (VA × Word))

/-- The word at the issuing split's program counter, fetched and decoded with its literals (R36, R53, R277). -/
def State.atPc (s : State) (c : Cur) : AtPc :=
  match s.warp c.core c.slot with
  | none => .wait
  | some x =>
    match x.split c.b with
    | none => .wait
    | some p =>
      match s.fetch c p.pc with
      | .wait => .wait
      | .cause t z => .cause t z 0
      | .word t v =>
        match decodeHead v.toNat with
        | none => .cause t (decodeTrap 0x041 0) v
        | some i =>
          match decodeFault x.env i with
          | some e => .cause t (decodeTrap e.1 e.2) v
          | none =>
            match t.fetchMore c i.literals (p.pc + 4) [] with
            | .wait => .wait
            | .cause u z => .cause u z 0
            | .words u l => .ready u (if l.isEmpty then i else i.withLiterals (l.getD 0 0) (l.getD 1 0))
                ((indexed (v :: l)).map fun e => (p.pc + BitVec.ofNat 57 (4 * e.1), e.2))

/-- A boundary of a warp: the first of a fetch or decode cause, what is delivered, and the word itself (R342). -/
def State.atBoundary (s : State) (c : Cur) (run : Instr → State → Out) : Out :=
  match s.atPc c with
  | .wait => .next s
  | .cause t z v => .next ((t.offered c true).take c z v)
  | .ready t i l =>
    match t.deliver c with
    | some u => .next u
    | none => run i ((({ t with cur := c } : State).offered c true).keepWords c l)

/-- An issue slot offered to a split (R26): one that may not issue, or is not ready, does nothing. -/
def State.issueTurn (s : State) (c : Cur) (ready : Bool) (run : Instr → State → Out) : Out :=
  if !s.runs c then .next s
  else if !ready then .next (s.offered c false)
  else if !s.heldAt c && !s.fairTo c then .next s
  else s.atBoundary c run

end Sys2Proof.Machine
end

