-- ==== Sys2Proof/Machine/LaneFloat.lean ====
section
/-! DEFINITION. Floating arithmetic of the lane set (R155 to R160, R170): element results with their flags, traps and the
stochastic-rounding state (R148). -/

namespace Sys2Proof.Machine

open Sys2Proof

/-- The stochastic state of a lane after `n` draws. -/
def srAfter : Nat → Word → Word
  | 0, g => g
  | n + 1, g => srAfter n (srNext g)

/-- One element's result, given its element number and the stochastic state drawn for it. -/
abbrev ElemFn := Warp → Split → Nat → Nat → Word → Flo

/-- The enabled element numbers of a lane, for elements of n bytes. -/
def enabledElems (en : BitVec 4) (n : Nat) : List Nat := (List.range (4 / n)).filter fun k => en.getLsbD (n * k)

/-- A lane's result: enabled elements in ascending order, each with its own draw (R148), and the flags they raise. -/
def laneElems (x : Warp) (p : Split) (n : Nat) (draws : Bool) (f : ElemFn) (l : Nat) (en : BitVec 4) : Nat × Nat :=
  (enabledElems en n).foldl (fun r k =>
    let i := (List.filter (fun j => decide (j < k)) (enabledElems en n)).length
    let g := if draws then srAfter (i + 1) (x.lane l).sr else 0
    let v := f x p l k g
    (r.1 + v.bits % 2 ^ (8 * n) * 2 ^ (8 * n * k), r.2 ||| v.flags)) (0, 0)

/-- A warp whose lanes have advanced their stochastic states once per enabled element (R148). -/
def Warp.drawn (x : Warp) (n : Nat) (en : Nat → BitVec 4) : Warp :=
  let lanes := mapPlace (fun l a => { a with sr := srAfter (enabledElems (en l) n).length a.sr }) 0 x.lanes
  { x with lanes := lanes, dirty := x.dirty || (x.frozen.isSome && lanes.map (·.sr) != x.lanes.map (·.sr)) }

/-- A lane-set floating word: sources, then ARITH traps, then the flags, the draws and the write-back (R155, R156). -/
def floatWord (i : Instr) (s : State) (nw : Bool) (g : BitVec 3) (neg : Bool) (d n : Nat) (codes : List Nat)
    (draws : Warp → Bool) (f : ElemFn) : Out :=
  issue i s fun s c x p =>
    let en := x.enabled p g neg n
    match x.readCause p (laneSources (x.enabledLanes p g neg n) codes) with
    | some t => .error t
    | none =>
      let r (l : Nat) : Nat × Nat := laneElems x p n (draws x) f l (en l)
      match arithCause x.fpc x.width fun l => (r l).2 with
      | some t => .error t
      | none =>
        let all := (List.range x.width).foldl (fun a l => a ||| (r l).2) 0
        let y := x.raise all
        let y := if draws x then y.drawn n en else y
        .ok (s.putWarp c (y.laneResult c.b p nw g neg d n fun l => BitVec.ofNat 32 (r l).1))

/-- The mode of x: RNE, or FPC.RM (R40, R157). -/
def Warp.rndX (x : Warp) (fpc : Bool) : Rnd := if fpc then x.rnd else .rne

/-- Element k of n bytes of a source, as a number. -/
def Warp.num (x : Warp) (p : Split) (k : Const) (fmt : FloatFmt) (n code l e : Nat) : Num :=
  fmt.unpack (bitsOf (8 * n) (8 * n * e) (x.val p k code l).toNat)

/-- A rounded word of Table 7 with two sources (R157). -/
def floatBin (i : Instr) (f : Fmt3) (s : State) (k : Const) (fmt : FloatFmt) (op : Rnd → Word → Num → Num → Flo) : Out :=
  let n := fmt.bits / 8
  floatWord i s f.nw f.g f.neg f.d.toNat n [f.a.toNat, f.b.toNat] (fun x => x.rndX f.x == .sr) fun x p l e g =>
    op (x.rndX f.x) g (x.num p k fmt n f.a.toNat l e) (x.num p k fmt n f.b.toNat l e)

/-- A fused word of Table 7 (R157). -/
def floatFma (i : Instr) (f : Fmt4) (s : State) (k : Const) (fmt : FloatFmt) : Out :=
  let n := fmt.bits / 8
  floatWord i s f.nw f.g f.neg 0 n [f.a.toNat, f.b.toNat, f.c.toNat] (fun x => x.rndX f.x == .sr) fun x p l e g =>
    fmt.fma (x.rndX f.x) g (x.num p k fmt n f.a.toNat l e) (x.num p k fmt n f.b.toNat l e)
      (x.num p k fmt n f.c.toNat l e)

/-- A word of one F32 source that rounds nothing by the mode (R160). -/
def floatFn (i : Instr) (f : Fmt3) (s : State) (op : Nat → Flo) : Out :=
  floatWord i s f.nw f.g f.neg f.d.toNat 4 [f.a.toNat] (fun _ => false) fun x p l _ _ =>
    op (x.val p .f32 f.a.toNat l).toNat

/-- A word of one F32 source rounded by the mode of x (R160). -/
def floatUn (i : Instr) (f : Fmt3) (s : State) (op : Rnd → Word → Num → Flo) : Out :=
  floatWord i s f.nw f.g f.neg f.d.toNat 4 [f.a.toNat] (fun x => x.rndX f.x == .sr) fun x p l _ g =>
    op (x.rndX f.x) g (x.num p .f32 F32 4 f.a.toNat l 0)

/-- FMIN and FMAX (R159): x has no effect. -/
def floatMinMax (i : Instr) (f : Fmt3) (s : State) (isMax : Bool) : Out :=
  floatWord i s f.nw f.g f.neg f.d.toNat 4 [f.a.toNat, f.b.toNat] (fun _ => false) fun x p l _ _ =>
    F32.minMax isMax (x.val p .f32 f.a.toNat l).toNat (x.val p .f32 f.b.toNat l).toNat

/-- FADD (R157). -/
def execFadd (f : Fmt3) (s : State) : Out := floatBin (.fadd f) f s .f32 F32 F32.add

/-- FSUB (R157). -/
def execFsub (f : Fmt3) (s : State) : Out := floatBin (.fsub f) f s .f32 F32 fun r g a b => F32.add r g a b.flip

/-- FMUL (R157). -/
def execFmul (f : Fmt3) (s : State) : Out := floatBin (.fmul f) f s .f32 F32 F32.mul

/-- FFMA (R157). -/
def execFfma (f : Fmt4) (s : State) : Out := floatFma (.ffma f) f s .f32 F32

/-- FMIN (R159). -/
def execFmin (f : Fmt3) (s : State) : Out := floatMinMax (.fmin f) f s false

/-- FMAX (R159). -/
def execFmax (f : Fmt3) (s : State) : Out := floatMinMax (.fmax f) f s true

/-- BADD2 (R157). -/
def execBadd2 (f : Fmt3) (s : State) : Out := floatBin (.badd2 f) f s .bf16 BF16 BF16.add

/-- BMUL2 (R157). -/
def execBmul2 (f : Fmt3) (s : State) : Out := floatBin (.bmul2 f) f s .bf16 BF16 BF16.mul

/-- BFMA2 (R157). -/
def execBfma2 (f : Fmt4) (s : State) : Out := floatFma (.bfma2 f) f s .bf16 BF16

/-- HADD2 (R157). -/
def execHadd2 (f : Fmt3) (s : State) : Out := floatBin (.hadd2 f) f s .f16 F16 F16.add

/-- HMUL2 (R157). -/
def execHmul2 (f : Fmt3) (s : State) : Out := floatBin (.hmul2 f) f s .f16 F16 F16.mul

/-- HFMA2 (R157). -/
def execHfma2 (f : Fmt4) (s : State) : Out := floatFma (.hfma2 f) f s .f16 F16

/-- FRCP (R160). -/
def execFrcp (f : Fmt3) (s : State) : Out := floatUn (.frcp f) f s F32.recip

/-- FRSQ (R160). -/
def execFrsq (f : Fmt3) (s : State) : Out := floatFn (.frsq f) f s frsqOf

/-- FSQRT (R160). -/
def execFsqrt (f : Fmt3) (s : State) : Out := floatUn (.fsqrt f) f s F32.sqrt

/-- FEXP2 (R160). -/
def execFexp2 (f : Fmt3) (s : State) : Out := floatFn (.fexp2 f) f s fexp2Of

/-- FLOG2 (R160). -/
def execFlog2 (f : Fmt3) (s : State) : Out := floatFn (.flog2 f) f s flog2Of

/-- FSIN (R160). -/
def execFsin (f : Fmt3) (s : State) : Out := floatFn (.fsin f) f s fsinOf

/-- FCOS (R160). -/
def execFcos (f : Fmt3) (s : State) : Out := floatFn (.fcos f) f s fcosOf

/-- FTANH (R160). -/
def execFtanh (f : Fmt3) (s : State) : Out := floatFn (.ftanh f) f s ftanhOf

/-- The addend and products of DOT4 (R170): exact terms, none where an E4M3 operand is a NaN. -/
def dot4Terms (a b : Word) : Option (List Term) :=
  let e (w : Word) (k : Nat) : Num := (floatFmt 3).unpack (bitsOf 8 (8 * k) w.toNat)
  if (List.range 4).any fun k => (e a k).isNan || (e b k).isNan then none
  else some ((List.range 4).filterMap fun k => match e a k, e b k with
    | .fin x m i, .fin y n j => some (x != y, m * n, i + j)
    | _, _ => none)

/-- c + Σ aₖ × bₖ rounded once (R170). A zero sum takes its sign as R153 gives for the sum of its terms (DEDUCED, log entry 22). -/
def dot4Of (r : Rnd) (g : Word) (a b : Word) (c : Num) : Flo :=
  match dot4Terms a b, c with
  | none, _ => { bits := F32.nanPat false, flags := if c.isSig then fINV else 0 }
  | _, .nan s _ => F32.nan s false
  | _, .inf n => { bits := F32.infPat n, flags := 0 }
  | some l, .fin n m e =>
    let t := (n, m, e) :: l
    let v := sumTerms t
    if v.1 = 0 then { bits := F32.signed (if t.all fun q => q.1 && q.2.1 == 0 then true else r == .rdn &&
                        !(t.all fun q => !q.1 && q.2.1 == 0)) 0, flags := 0 }
    else F32.round r g false (v.1 < 0) v.1.natAbs v.2

/-- DOT4 (R170). -/
def execDot4 (f : Fmt4) (s : State) : Out :=
  floatWord (.dot4 f) s f.nw f.g f.neg 0 4 [f.a.toNat, f.b.toNat, f.c.toNat] (fun x => x.rndX f.x == .sr)
    fun x p l _ g => dot4Of (x.rndX f.x) g (x.val p .e4m3 f.a.toNat l) (x.val p .e4m3 f.b.toNat l)
      (x.num p .f32 F32 4 f.c.toNat l 0)

end Sys2Proof.Machine
end

