-- ==== Sys2Proof/Machine/Convert.lean ====
section
/-! DEFINITION. The conversions (R161 to R169): each converts the active lanes, with the flags, draws and write-back that they
share. -/

namespace Sys2Proof.Machine

open Sys2Proof

/-- How a conversion reads the constants, by its source format (R41). -/
def constOf (f : Nat) : Const :=
  if f = 0 then .f32 else if f = 1 then .bf16 else if f = 2 then .f16 else if f = 3 then .e4m3 else if f = 4 then .e5m2
  else if f = 5 then .e3m2 else if f = 6 then .e2m3 else if f = 7 then .e2m1 else if f = 8 ∨ f = 9 then .int 8
  else if f = 10 then .int 16 else .int 32

/-- A conversion word (R161): active lanes give their bits and flags; `part` are the bytes it writes, `n` the elements of a
lane that draw when the mode is SR (R148). -/
def convWord (i : Instr) (f : FmtV) (s : State) (part : BitVec 4) (n : Nat) (draws : Warp → Bool)
    (res : Warp → Split → Nat → Flo) : Out :=
  issue i s fun s c x p =>
    let act := x.active p f.g f.neg
    match x.readCause p (laneSources act [f.a.toNat]) with
    | some t => .error t
    | none =>
      let r (l : Nat) : Flo := if act.getLsbD l then res x p l else { bits := 0, flags := 0 }
      match arithCause x.fpc x.width fun l => (r l).flags with
      | some t => .error t
      | none =>
        let y := x.raise ((List.range x.width).foldl (fun a l => a ||| (r l).flags) 0)
        let y := if draws x then
            { y with lanes := mapPlace (fun l a => if act.getLsbD l then { a with sr := srAfter n a.sr } else a) 0 y.lanes,
                     dirty := y.dirty || (y.frozen.isSome && act != 0) }
          else y
        .ok (s.putWarp c ((y.writeLanes c.b p f.nw 0 (fun l => if act.getLsbD l then part else 0)
          fun l => BitVec.ofNat 32 (r l).bits).advance c.b))

/-- Whether every value of one floating format is a value of another (R162). -/
def widens (s d : Nat) : Bool :=
  let a := floatFmt s
  let b := floatFmt d
  a.bits < b.bits && a.frac ≤ b.frac && decide ((1 - (b.bias : Int) - b.frac) ≤ 1 - (a.bias : Int) - a.frac) &&
    !ltNum (b.unpack b.top) (a.unpack a.top) && (!a.hasInf || b.hasInf) && (!a.hasNan || b.hasNan)

/-- Whether a conversion rounds by the mode SR. -/
def Warp.drawsFor (x : Warp) (rm : BitVec 3) : Bool := x.rndFor rm == .sr

/-- Draw k of a lane. -/
def Warp.draw (x : Warp) (l k : Nat) : Word := srAfter (k + 1) (x.lane l).sr

/-- CVT (R162). -/
def execCvt (f : FmtV) (s : State) : Out :=
  let sf := f.sf.toNat
  let df := f.df.toNat
  convWord (.cvt f) f s 15 1 (fun x => !widens sf df && x.drawsFor f.rm) fun x p l =>
    let a := (floatFmt sf).unpack (x.val p (constOf sf) f.a.toNat l).toNat
    if widens sf df then (floatFmt df).convert .rne 0 false a
    else (floatFmt df).convert (x.rndFor f.rm) (x.draw l 0) f.sat a

/-- An integer clamped to a range. -/
def clampInt (lo hi v : Int) : Int := if v < lo then lo else if hi < v then hi else v

/-- The range of an integer format (R142). -/
def intRange (f : Nat) : Int × Int :=
  if f = 8 then (-128, 127) else if f = 9 then (0, 255) else if f = 10 then (-32768, 32767)
  else if f = 11 then (-2147483648, 2147483647) else (0, 4294967295)

/-- The value of an integer pattern (R142). -/
def intValue (f w : Nat) : Int :=
  if f = 9 then (w % 256 : Nat) else if f = 12 then (w % 2 ^ 32 : Nat) else signed (formatBits f) w

/-- An integer narrowed (R163): clamped, or its low bits. -/
def narrowInt (d : Nat) (sat : Bool) (v : Int) : Nat :=
  wrap (formatBits d) (if sat then clampInt (intRange d).1 (intRange d).2 v else v)

/-- A list of parts joined: each part's flags, and its bits at its slot. -/
def joinSlots (w base : Nat) (l : List Flo) : Flo :=
  { bits := (indexed l).foldl (fun a e => a + e.2.bits % 2 ^ w * 2 ^ (w * (base + e.1))) 0,
    flags := l.foldl (fun a v => a ||| v.flags) 0 }

/-- CVTP (R163). -/
def execCvtp (f : FmtV) (s : State) : Out :=
  let sf := f.sf.toNat
  let df := f.df.toNat
  let sw := slotBits sf
  let dw := slotBits df
  let n := 32 / sw
  let h := bit f.x
  convWord (.cvtp f) f s (if f.x then 12 else 3) n (fun x => sf ≤ 7 && x.drawsFor f.rm) fun x p l =>
    let a := (x.val p (constOf sf) f.a.toNat l).toNat
    joinSlots dw (n * h) ((List.range n).map fun k =>
      let e := bitsOf (formatBits sf) (sw * k) a
      if sf ≤ 7 then (floatFmt df).convert (x.rndFor f.rm) (x.draw l k) f.sat ((floatFmt sf).unpack e)
      else { bits := narrowInt df f.sat (intValue sf e), flags := 0 })

/-- CVTU (R164). -/
def execCvtu (f : FmtV) (s : State) : Out :=
  let sf := f.sf.toNat
  let df := f.df.toNat
  let sw := slotBits sf
  let dw := slotBits df
  let n := 32 / dw
  convWord (.cvtu f) f s 15 n (fun _ => false) fun x p l =>
    let a := (x.val p (constOf sf) f.a.toNat l).toNat
    joinSlots dw 0 ((List.range n).map fun k =>
      let e := bitsOf (formatBits sf) (sw * (n * bit f.x + k)) a
      if sf ≤ 7 then (floatFmt df).convert .rne 0 false ((floatFmt sf).unpack e)
      else { bits := wrap dw (intValue sf e), flags := 0 })

/-- A number rounded to an integer by a mode: its sign, magnitude, and whether it changed (R165, R167). -/
def roundInt (r : Rnd) (g : Word) (neg : Bool) (m : Nat) (e : Int) : Nat × Bool :=
  let u := units m e 0
  (roundUnits r g neg u.1 u.2.1 u.2.2, u.2.1 != 0)

/-- An element rounded to an integral value in its own format (R165). -/
def frndOf (f : FloatFmt) (r : Rnd) (g : Word) (a : Nat) : Flo :=
  match f.unpack a with
  | .nan s _ => f.nan s false
  | .inf n => { bits := f.infPat n, flags := 0 }
  | .fin n m e => { bits := (f.round .rne 0 false n (roundInt r g n m e).1 0).bits, flags := 0 }

/-- FRND (R165). -/
def execFrnd (f : FmtV) (s : State) : Out :=
  let sf := f.sf.toNat
  let w := formatBits sf
  let n := 32 / w
  convWord (.frnd f) f s 15 n (fun x => x.drawsFor f.rm) fun x p l =>
    let a := (x.val p (constOf sf) f.a.toNat l).toNat
    joinSlots w 0 ((List.range n).map fun k =>
      frndOf (floatFmt sf) (x.rndFor f.rm) (x.draw l k) (bitsOf w (w * k) a))

/-- I2F (R166). -/
def execI2f (f : FmtV) (s : State) : Out :=
  let sf := f.sf.toNat
  convWord (.i2f f) f s 15 1 (fun x => x.drawsFor f.rm) fun x p l =>
    (floatFmt f.df.toNat).convert (x.rndFor f.rm) (x.draw l 0) f.sat
      (Num.ofInt (intValue sf (x.val p (constOf sf) f.a.toNat l).toNat))

/-- A number as an integer of a format, extended to 32 bits (R167). -/
def f2iOf (d : Nat) (r : Rnd) (g : Word) : Num → Flo
  | .nan _ _ => { bits := 0, flags := fINV }
  | .inf n => { bits := wrap 32 (if n then (intRange d).1 else (intRange d).2), flags := fINV }
  | .fin n m e =>
    let q := roundInt r g n m e
    let v : Int := if n then -(q.1 : Int) else q.1
    let c := clampInt (intRange d).1 (intRange d).2 v
    { bits := wrap 32 c, flags := if c != v then fINV else if q.2 then fINX else 0 }

/-- F2I (R167). -/
def execF2i (f : FmtV) (s : State) : Out :=
  let sf := f.sf.toNat
  convWord (.f2i f) f s 15 1 (fun x => x.drawsFor f.rm) fun x p l =>
    f2iOf f.df.toNat (x.rndFor f.rm) (x.draw l 0) ((floatFmt sf).unpack (x.val p (constOf sf) f.a.toNat l).toNat)

/-! ### Blocks (R145, R146, R168, R169) -/

/-- The larger of two magnitudes. -/
def maxMag (a b : Nat × Int) : Nat × Int :=
  if (addExact false a.1 a.2 true b.1 b.2).1 < 0 then b else a

/-- The largest magnitude among the finite elements of a block; (0, 0) where there is none or all are 0. -/
def amaxOf (l : List Num) : Nat × Int :=
  l.foldl (fun a v => match v with
    | .fin _ m e => if m = 0 then a else if a.1 = 0 then (m, e) else maxMag a (m, e)
    | _ => a) (0, 0)

/-- The exponent of an element format's largest finite value (R145). -/
def emaxOf (f : Nat) : Int := if f = 3 then 8 else if f = 4 then 15 else if f = 5 then 4 else if f = 8 then 0 else 2

/-- The E8M0 scale that the device chooses (R145). -/
def mxScale (f : Nat) (l : List Num) : Nat :=
  if l.any Num.isNan then 0xFF
  else
    let a := amaxOf l
    if a.1 = 0 then 0
    else (clampInt 0 254 ((a.1.log2 : Int) + a.2 - emaxOf f + 127)).toNat

/-- The largest element value of a VB128 format (R146). -/
def vbMax (f : Nat) : Nat := if f = 3 then 448 else if f = 7 then 6 else 127

/-- A quotient m × 2^t ÷ d rounded upward. -/
def ceilDiv (m : Nat) (t : Int) (d : Nat) : Nat :=
  let n := if 0 ≤ t then m * 2 ^ t.toNat else m
  let q := if 0 ≤ t then d else d * 2 ^ (-t).toNat
  (n + q - 1) / q

/-- The S20 scale that the device chooses (R146). -/
def vbScale (f : Nat) (l : List Num) : Nat :=
  if l.any Num.isNan then 0xFF000
  else
    let a := amaxOf l
    if a.1 = 0 then 0
    else
      let d := vbMax f
      let top : Int := ((a.1 * 2 ^ 64 / d).log2 : Int) - 64 + a.2
      let q := ceilDiv a.1 (a.2 - top + 12) d
      let top := if q = 8192 then top + 1 else top
      let q := if q = 8192 then 4096 else q
      let e := top + 127
      if e < 0 then 0 else if 254 < e then 254 * 4096 + 4095 else e.toNat * 4096 + (q - 4096)

/-- A magnitude divided exactly by a scale: 96 bits and a last bit that says whether more follow. -/
def divScale (m : Nat) (e : Int) (sc : Nat × Int) : Nat × Int :=
  let k := 96 + sc.1.log2
  (2 * (m * 2 ^ k / sc.1) + (if m * 2 ^ k % sc.1 = 0 then 0 else 1), e - sc.2 - k - 1)

/-- An element quantised to an integer of magnitude at most 127 (R168). -/
def quantInt (r : Rnd) (g : Word) (neg : Bool) (m : Nat) (e : Int) : Flo :=
  let q := roundInt r g neg m e
  let v := min 127 q.1
  { bits := wrap 8 (if neg then -(v : Int) else v), flags := if q.2 || v != q.1 then fINX else 0 }

/-- A signalling NaN input sets INVALID (R150). -/
def sigFlag (v : Num) : Nat := if v.isSig then fINV else 0

/-- An element quantised by a scale pattern (R168). -/
def quantOf (vb : Bool) (f scale : Nat) (r : Rnd) (g : Word) (sat : Bool) (v : Num) : Flo :=
  match scaleNum vb scale with
  | none => { bits := if f = 3 ∨ f = 4 then (floatFmt f).nanPat v.neg else 0, flags := sigFlag v }
  | some sc =>
    match v with
    | .nan _ _ => { bits := 0, flags := sigFlag v }
    | .inf n =>
      if f = 8 then { bits := wrap 8 (if n then -127 else 127), flags := if sat then 0 else fOVF }
      else (floatFmt f).inf sat n
    | .fin n m e =>
      let q := divScale m e sc
      if f = 8 then quantInt r g n q.1 (if vb then q.2 else q.2 + 6)
      else
        let w := (floatFmt f).round r g true n q.1 q.2
        { w with flags := if w.flags / 4 % 2 = 1 then fINX else w.flags }

/-- The element format that sets the scale: the destination, or for a scale form the one the model leaves free (log entry
23). -/
def scaleFmt (df n : Nat) : Nat :=
  if df = 13 then ([3, 4, 5, 6, 7, 8] : List Nat).getD (n % 6) 3
  else if df = 14 then ([3, 7, 8] : List Nat).getD (n % 3) 3
  else df

/-- MXQ (R168). -/
def execMxq (f : FmtV) (s : State) : Out :=
  let sf := f.sf.toNat
  let df := f.df.toNat
  let w := formatBits sf
  let n := 32 / w
  let B := mxqLanes sf f.x
  let scaleForm := df == 13 || df == 14
  let ef := scaleFmt df (Config.scaleFormat df)
  convWord (.mxq f) f s 15 n (fun x => !scaleForm && x.drawsFor f.rm) fun x p l =>
    let elems (j : Nat) : List Num := (List.range n).map fun k =>
      (floatFmt sf).unpack (bitsOf w (w * k) (x.val p (constOf sf) f.a.toNat j).toNat)
    let act := x.active p f.g f.neg
    let V := (((List.range B).map fun i => l / B * B + i).filter fun j => act.getLsbD j).flatMap elems
    let S := if f.x then vbScale ef V else mxScale ef V
    if scaleForm then { bits := S, flags := (elems l).foldl (fun a v => a ||| sigFlag v) 0 }
    else joinSlots (slotBits df) 0 ((indexed (elems l)).map fun e =>
      quantOf f.x df S (x.rndFor f.rm) (x.draw l e.1) f.sat e.2)

/-- Scale times element rounded into F32 or BF16 (R169). -/
def mxdOf (d : Nat) (r : Rnd) (g : Word) (sat : Bool) (v : Num) : Flo :=
  match v with
  | .nan _ _ => { bits := (floatFmt d).nanPat false, flags := 0 }
  | x => (floatFmt d).convert r g sat x

/-- MXD (R169). -/
def execMxd (f : FmtV) (s : State) : Out :=
  let df := f.df.toNat
  convWord (.mxd f) f s 15 1 (fun x => x.drawsFor f.rm) fun x p l =>
    let a := (x.val p (.int 32) f.a.toNat l).toNat
    let e := if f.x then a / 2 ^ 20 else a
    mxdOf df (x.rndFor f.rm) (x.draw l 0) f.sat
      (blockNum f.x f.sf.toNat (if f.x then bitsOf 20 0 a else bitsOf 8 8 a) (bitsOf (formatBits f.sf.toNat) 0 e))

end Sys2Proof.Machine
end

