-- ==== Sys2Proof/Machine/CrossLane.lean ====
section
/-! DEFINITION. Shuffles, vote, match and lane transfer (R125 to R127, R132, R133). -/

namespace Sys2Proof.Machine

open Sys2Proof

/-- The lane a shuffle reads for lane l with distance δ; none below 0 (R125). -/
inductive Shuffle where
  | at_
  | up
  | down
  | xor
  deriving DecidableEq, Repr

/-- The source lane of a shuffle (R125); none where it lies below 0. -/
def Shuffle.lane (k : Shuffle) (l δ : Nat) : Option Nat :=
  match k with
  | .at_ => some δ
  | .up => if l < δ then none else some (l - δ)
  | .down => some (l + δ)
  | .xor => some (l ^^^ δ)

/-- The sources of a word whose b says which lanes of a it reads: both must not be stale (R106), then b is read in the active
lanes, and a in those that `from_` holds (R104; DEDUCED, log entry 43). -/
def twoStep (act from_ : LaneMask) (a b : Nat) : List Source :=
  laneSources 0 [a, b] ++ laneSources act [b] ++ laneSources from_ [a]

/-- A shuffle word (R125): b is read in the active lanes, a also in their source lanes within the split. -/
def shuffleWord (i : Instr) (f : Fmt3) (s : State) (k : Shuffle) : Out :=
  issue i s fun s c x p =>
    let act := x.active p f.g f.neg
    let src (l : Nat) : Option Nat := k.lane l ((x.val p (.int 32) f.b.toNat l).toNat % 64)
    let from_ : LaneMask := maskOf x.width fun j => p.mask.getLsbD j &&
      (List.range x.width).any fun l => act.getLsbD l && src l == some j
    match x.readCause p (twoStep act (act ||| from_) f.a.toNat f.b.toNat) with
    | some t => .error t
    | none =>
      let val (l : Nat) : Word := x.val p (.int 32) f.a.toNat l
      .ok (s.putWarp c (x.laneResult c.b p f.nw f.g f.neg f.d.toNat 4 fun l =>
        match src l with
        | none => val l
        | some j => if x.width ≤ j then val l else if p.mask.getLsbD j then val j else 0))

/-- SHFL (R125). -/
def execShfl (f : Fmt3) (s : State) : Out := shuffleWord (.shfl f) f s .at_

/-- SHFLUP (R125). -/
def execShflup (f : Fmt3) (s : State) : Out := shuffleWord (.shflup f) f s .up

/-- SHFLDN (R125). -/
def execShfldn (f : Fmt3) (s : State) : Out := shuffleWord (.shfldn f) f s .down

/-- SHFLX (R125). -/
def execShflx (f : Fmt3) (s : State) : Out := shuffleWord (.shflx f) f s .xor

/-- What a vote over the active lanes and those that say yes gives (R126). -/
def voteOf (mode : Nat) (act yes : LaneMask) : Word :=
  if mode = 0 then BitVec.ofNat 32 (bit (yes != 0)) else if mode = 1 then BitVec.ofNat 32 (bit (yes == act))
  else if mode = 2 then yes.setWidth 32 else (yes >>> 32).setWidth 32

/-- VOTE (R126). -/
def execVote (f : Fmt3) (s : State) : Out :=
  laneWord (.vote f) s f.nw f.g f.neg f.d.toNat 4 [] fun x p _ =>
    let act := x.active p f.g f.neg
    voteOf f.b.toNat act (maskOf x.width fun l =>
      act.getLsbD l && ((x.lane l).pred (f.a.toNat % 8)).getLsbD 0 != f.a.getLsbD 3)

/-- MATCH (R127). -/
def execMatch (f : Fmt3) (s : State) : Out :=
  laneWord (.match_ f) s f.nw f.g f.neg f.d.toNat 4 [f.a.toNat] fun x p l =>
    let act := x.active p f.g f.neg
    let val (j : Nat) : Word := x.val p (.int 32) f.a.toNat j
    BitVec.ofNat 32 ((List.range 32).foldl (fun r i =>
      if act.getLsbD (32 * f.b.toNat + i) && val (32 * f.b.toNat + i) == val l then r + 2 ^ i else r) 0)

/-- RDLANE (R132): with no active lane nothing is read, and a push copies k0. -/
def execRdlane (f : Fmt3) (s : State) : Out :=
  issue (.rdlane f) s fun s c x p =>
    let act := x.active p f.g f.neg
    let done (g : Bool) (v : DWord) : Except Trap State := .ok (s.putWarp c (x.uniResult c.b p f.nw f.d.toNat g v))
    match lowestLane x.width act.getLsbD with
    | none => match x.readCause p (laneSources 0 [f.a.toNat, f.b.toNat]) with
      | some t => .error t
      | none => done false 0
    | some lmin =>
      let j := (x.val p (.int 32) f.b.toNat lmin).toNat % 64
      let from_ : LaneMask := if decide (j < x.width) && p.mask.getLsbD j then BitVec.ofNat 64 (2 ^ j) else 0
      match x.readCause p (twoStep act (act ||| from_) f.a.toNat f.b.toNat) with
      | some t => .error t
      | none => done true (if from_ == 0 then 0 else (x.val p (.int 32) f.a.toNat j).setWidth 64)

/-- WRLANE (R133): b is read in the active lanes, to find the lane, and a where that lane is enabled
(R104; DEDUCED, log entry 43). -/
def execWrlane (f : Fmt3) (s : State) : Out :=
  issue (.wrlane f) s fun s c x p =>
    let act := x.active p f.g f.neg
    let j := (x.uval p f.b.toNat).toNat % 64
    let one : LaneMask := act &&& BitVec.ofNat 64 (2 ^ j)
    match x.readCause p (uniSources false [f.a.toNat, f.b.toNat] ++
        [{ uni := true, code := f.b.toNat, lanes := act }, { uni := true, code := f.a.toNat, lanes := one }]) with
    | some t => .error t
    | none =>
      .ok (s.putWarp c ((x.writeLanes c.b p f.nw f.d.toNat (fun l => if one.getLsbD l then 15 else 0)
        fun _ => (x.uval p f.a.toNat).setWidth 32).advance c.b))

end Sys2Proof.Machine
end

