-- ==== Sys2Proof/Machine/Ordering.lean ====
section
/-! DEFINITION. Range write-back and invalidate (R253), FENCE (R267), WAITV (R269), XPUB and XPROBE (R282, R283). -/

namespace Sys2Proof.Machine

open Sys2Proof

/-! ### Ranges of pages -/

/-- The parts of a run of n bytes at an address, each within one 64 KiB page: offset and length. -/
def pageRuns (a n : Nat) : List (Nat × Nat) :=
  (List.range (n / 65536 + 2)).filterMap fun i =>
    let lo := max a ((a / 65536 + i) * 65536)
    let hi := min (a + n) ((a / 65536 + i + 1) * 65536)
    if lo < hi then some (lo - a, hi - lo) else none

/-- The pages under a run, each checked, or the earliest cause among them (R253, R255, R282). -/
def pagesUnder (check : Nat → Except (Nat × Nat) Leaf) (a : Nat) (k : Kind) (runs : List (Nat × Nat)) :
    Except Trap (List (Nat × Nat × Leaf)) :=
  let r := runs.map fun e => (e.1, e.2, check ((a + e.1) % 2 ^ 57))
  match worstCause r with
  | some c =>
    let level := match r.filter (gave c) with
      | (_, _, .error e) :: _ => e.2
      | _ => 15
    .error (Trap.of c (if c = 0x186 then 0 else memInfo level k))
  | none => .ok (r.filterMap fun e => match e.2.2 with
    | .ok l => some (e.1, e.2.1, l)
    | .error _ => none)

/-- The lines under the parts of a range in its pages, in order: each part's first line and their number. -/
def lineRuns (pages : List (Nat × Nat × Leaf)) : List (Nat × Nat) :=
  pages.map fun e => (e.2.2.pa / 128, (e.2.2.pa + e.2.1 - 1) / 128 - e.2.2.pa / 128 + 1)

/-- The line at a place of runs of lines. -/
def lineAt : List (Nat × Nat) → Nat → Option Nat
  | [], _ => none
  | r :: l, i => if i < r.2 then some (r.1 + i) else lineAt l (i - r.2)

/-- Whether runs of lines hold a line. -/
def inRuns (runs : List (Nat × Nat)) (line : Nat) : Bool := runs.any fun r => decide (r.1 ≤ line) && decide (line < r.1 + r.2)

/-! ### RWB, RINV and RWBI (R253) -/

/-- The state after a range word has reached a line: written back, and dropped, from every L1 and L0 of the die too. -/
def State.rangeLine (s : State) (w : Who) (line : Nat) (wb inv : Bool) : State :=
  let s := if wb then s.writeBack w line else s
  if inv then (s.setDie w.die ((s.die w.die).dropCopy1 w.part line)).dropCached w.die line else s

/-- A checked range word's next part: once the warp's earlier writes are performed, the line at its place is reached, and the word ends
after the last, when what it wrote is performed at .sys (R253). A line whose dirty bytes wait for the host holds the word (R245). -/
def State.rangeOn (s : State) (c : Cur) (x : Warp) (p : Split) (i : Instr) (wb inv : Bool) (n : Nat) (runs : List (Nat × Nat))
    (pos : Nat) : State :=
  let w := s.whoOf c.core x
  let at_ (pos : Nat) : State → State := fun t => t.upd c fun y => y.setSplit c.b (some (p.block (.lines n runs pos) (wordOf i)))
  if x.undoneBefore n fun o => o.path == 1 && o.isWrite then at_ pos s
  else match lineAt runs pos with
    | none => if wb && !s.applied x.stamped then at_ pos s else s.released_ c false
    | some line =>
      if wb && (s.writeBack w line).owesBack w line then at_ pos s
      else
        let t := s.rangeLine w line wb inv
        let sent := restamp s t w.die x.stamped
        let t := t.upd c fun y => { y with stamped := sent }
        if (lineAt runs (pos + 1)).isNone && (!wb || t.applied sent) then t.released_ c false else at_ (pos + 1) t

/-- A range word: its operands and pages are checked once, the warp's earlier writes are waited for, and each line of a TYPE 1 page is
reached in turn. -/
def rangeWord (i : Instr) (f : Fmt3) (s : State) (wb inv : Bool) : Out :=
  issue i s fun s c x p =>
    let g := x.cguard f.g f.neg
    match p.wait with
    | .lines n runs pos => .ok (s.rangeOn c x p i wb inv n runs pos)
    | _ =>
    match x.readCause p (uniSources g [f.a.toNat, f.b.toNat]) with
    | some t => .error t
    | none =>
      let a := (x.uval p f.a.toNat).toNat % 2 ^ 57
      let n := (x.uval p f.b.toNat).toNat
      if !g then .ok (s.retire c)
      else if (x.fw.map (·.level)) == some 2 then .error (Trap.of 0x141 0)
      else if 2 ^ 30 < n then .error (Trap.of 0x084 (memInfo 15 .range))
      else if n = 0 then .ok (s.released_ c false)
      else
        match pagesUnder (fun va => s.access (s.whoOf c.core x) (s.tlb c.core) .range false va 1) a .range (pageRuns a n) with
        | .error t => .error t
        | .ok pages => .ok (s.rangeOn c x p i wb inv s.serial (lineRuns (pages.filter fun e => e.2.2.type == 1)) 0)

/-- RWB (R253). -/
def execRwb (f : Fmt3) (s : State) : Out := rangeWord (.rwb f) f s true false
/-- RINV (R253). -/
def execRinv (f : Fmt3) (s : State) : Out := rangeWord (.rinv f) f s false true
/-- RWBI (R253). -/
def execRwbi (f : Fmt3) (s : State) : Out := rangeWord (.rwbi f) f s true true

/-! ### FENCE (R267) -/

/-- Whether an operation returns a value that an acquire waits for. -/
def Op.reads (o : Op) : Bool :=
  match o.kind with
  | .load _ _ => true
  | .atom _ _ => true
  | .pop _ _ => true
  | .peek _ _ => true
  | .probe => true
  | _ => false

/-- Whether a release at a scope holds (R256, R265, R267): every earlier access is performed, and at .pkg and beyond applied at
every die (DEDUCED, log entry 54). -/
def State.releaseDone (s : State) (x : Warp) (n scope : Nat) : Bool :=
  !x.undoneBefore n Op.access && (decide (scope < 4) || s.applied x.stamped)

/-- Whether a split is blocked at a WAITV, or about to look at its word again after a write to the line. -/
def Split.atWaitv (p : Split) : Bool :=
  match p.wait with
  | .waitv _ _ => true
  | .again => true
  | _ => false

/-- Whether an acquire holds (R267): every earlier read has returned, and so has the WAITV at which the other split is blocked. -/
def Warp.acquireDone (x : Warp) (b : Bool) (n : Nat) : Bool :=
  !(x.ops.any fun o => decide (o.id < n) && !o.done && o.reads) && !((x.split (!b)).any Split.atWaitv)

/-- Whether every write that precedes a full fence in causal order is applied within its scope (R267). -/
def State.fullDone (s : State) (d scope : Nat) : Bool := decide (scope < 4) || s.applied (s.die d).clock

/-- FENCE (R267): kind 1 acquires, 2 releases, 3 does both and is cumulative. -/
def execFence (f : FmtI) (s : State) : Out :=
  issue (.fence f) s fun s c x p =>
    if !x.cguard f.g f.neg then .ok (s.retire c)
    else
      let kind := bitsOf 2 3 f.imm.toNat
      let scope := bitsOf 3 0 f.imm.toNat
      let n := p.heldFrom s.serial
      if (kind == 1 || s.releaseDone x n scope) && (kind == 2 || x.acquireDone c.b n) &&
          (kind != 3 || s.fullDone (coreDie c.core) scope) then
        .ok (s.released_ c (kind != 2))
      else .ok (s.blockAt c x p (.fence f) (.fence n))

/-! ### WAITV (R269) -/

/-- A read that a word makes as part of itself, as an operation to be ordered among those of its warp (R258,
R259; DEDUCED, log entry 60). -/
def State.wordRead (s : State) (i : Instr) (a : Acc) : Op := s.newOp i 1 (.load 5 true) 5 false false [a]

/-- Whether WAITV's test holds of a word: equal, or unsigned greater than or equal, under the mask. -/
def waitvTest (geu : Bool) (w b m : DWord) : Bool := if geu then decide (b.toNat ≤ (w &&& m).toNat) else w &&& m == b

/-- The writes performed at a line's home (R269). -/
def State.lineWrites (s : State) (line : Nat) : Nat := (get s.writes line).getD 0

/-- WAITV (R269). -/
def execWaitv (f : Fmt4) (s : State) : Out :=
  issue (.waitv f) s fun s c x p =>
    let g := x.cguard f.g f.neg
    match x.readCause p (uniSources g [f.a.toNat, f.b.toNat, f.c.toNat]) with
    | some t => .error t
    | none =>
      if !g then .ok (s.putWarp c (x.uniResult c.b p f.nw 0 false 0))
      else
        let va := (x.uval p f.a.toNat).toNat % 2 ^ 57
        if x.fw.isSome && (x.fw.map (·.level)) != some 2 && isCtrl va then
          (if va % 8 = 0 then .error (Trap.of 0x103 (memInfo 15 .read)) else .error (Trap.of 0x104 (memInfo 15 .read)))
        else
        match s.uniAccess c x .read true va 8 with
        | .error e => .error (Trap.of e.1 (memInfo e.2 .read))
        | .ok a =>
          if !s.inOrder c.core x (s.wordRead (.waitv f) a) a then .ok s
          else
            match s.load (s.whoOf c.core x) 2 a.hs a.pa 8 a.keyIdx with
            | none => .ok s
            | some (t, _, some z) => .ok (t.take c (Trap.of z.toNat (memInfo 15 .read)) (wordOf (.waitv f)))
            | some (t, b, none) =>
              let w : DWord := BitVec.ofNat 64 (ofBytes b)
              if waitvTest f.x w (x.uval p f.b.toNat) (x.uval p f.c.toNat) then
                .ok (t.putWarp c (x.uniResult c.b p.unbuffer f.nw 0 true w))
              else
                .ok (t.blockAt c x p (.waitv f) (.waitv (a.pa / 128) (s.lineWrites (a.pa / 128))))

/-- WAITV_WAKE (R269): a write performed at the home lets a blocked WAITV be evaluated again. -/
def execWaitvWake (c w : Nat) (b : Bool) (s : State) : Out :=
  match (s.warp c w).bind fun x => (x.split b).map fun p => (x, p) with
  | none => .next s
  | some (x, p) =>
    match p.wait with
    | .waitv line n =>
      .next (if s.lineWrites line = n then s else s.setWarp c w (x.setSplit b (some { p with wait := .again })))
    | _ => .next s

/-! ### Publishing (R279, R280, R282) -/

/-- A page that an agent may publish (R282), or the cause and level. -/
def State.codePage (s : State) (w : Who) (tlb : List (Nat × Nat × Nat × DWord)) (va : Nat) : Except (Nat × Nat) Leaf :=
  match s.translate w tlb va with
  | .error e => .error e
  | .ok l =>
    if !s.populated l.pa then .error (0x103, l.level)
    else if !s.keyOk w l.pa l.key then .error (0x146, l.level)
    else if !l.w && !l.x then .error (0x186, 0)
    else .ok l

/-- A page that XPUB or XPROBE may name (R282, R283), or the cause and level. -/
def State.codeAccess (s : State) (c : Cur) (x : Warp) (va : Nat) : Except (Nat × Nat) Leaf :=
  s.codePage (s.whoOf c.core x) (s.tlb c.core) va

/-- The smallest scope around a core that covers its own scope and another core's (Table 2 of R279). -/
def joinScope (s1 c1 s2 c2 : Nat) : Nat :=
  ((List.range 6).find? fun k => decide (s2 ≤ k) && decide (s1 ≤ k) && inScope k c2 c1).getD 5

/-- A line's state after XPUB at a scope by a core (Table 2 of R279). -/
def pubAfter (old : Option Pub) (scope c : Nat) : Pub :=
  match old with
  | some .clean => .clean
  | none => if scope = 5 then .clean else .pub scope c
  | some (.pub s1 c1) =>
    let k := joinScope s1 c1 scope c
    if k = 5 then .clean else .pub k c

/-- The entries of a slice's table of line states for regions 1 to 3 (R280). -/
def State.pubTable (s : State) (slice : Nat) : List Nat := (s.pubs.filter fun e => e.1 / 2 ^ 46 == slice + 1).map (·.1)

/-- The publish states after a full table has evicted an entry for a new one (R280); which is not stated. -/
def State.pubRoom (s : State) (w : Who) (line : Nat) : List (Nat × Pub) :=
  if region (128 * line) = 0 ∨ (get s.pubs (s.pubKey w line)).isSome then s.pubs
  else
    let t := s.pubTable (s.home w (128 * line))
    if t.length < 65536 then s.pubs else del s.pubs (t.getD (Config.pubEvict s.free % t.length) 0)

/-- The state in which a line is published (R282). -/
def State.publish (s : State) (w : Who) (line scope c : Nat) : State :=
  { s with pubs := put (s.pubRoom w line) (s.pubKey w line) (pubAfter (s.pubOf w line) scope c) }

/-- Whether an address of a warp's code lies in one of some lines; one that no longer translates counts. -/
def State.codeIn (s : State) (c : Nat) (x : Warp) (runs : List (Nat × Nat)) (va : Nat) : Bool :=
  match s.translate (s.whoOf c x) (s.tlb c) va with
  | .ok l => inRuns runs (l.pa / 128)
  | .error _ => true

/-- A split whose fetch buffer has lost the words that satisfy a test; a word that it has issued stays (R278, R282). -/
def Split.dropWords (p : Split) (f : Nat → Bool) : Split :=
  let keep (l : List (VA × Word)) : List (VA × Word) := l.filter fun e => !f e.1.toNat
  { p with buf := keep p.buf, cur := if p.issued || (keep p.cur).length == p.cur.length then p.cur else [] }

/-- A warp whose loop buffer and fetch buffers, those set aside included, have lost the words that satisfy a test (R281, R282). -/
def Warp.dropWords (x : Warp) (f : Nat → Bool) : Warp :=
  let sp (p : Split) : Split := p.dropWords f
  let lb (l : List (Nat × Word)) : List (Nat × Word) := l.filter fun e => !f e.1
  x.restep { x with
    a := x.a.map sp, b := x.b.map sp, loopBuf := lb x.loopBuf,
    frozen := x.frozen.map fun z => { z with a := z.a.map sp, b := z.b.map sp, loopBuf := lb z.loopBuf },
    inline := x.inline.map fun z => { z with a := z.a.map sp, b := z.b.map sp, loopBuf := lb z.loopBuf } }

/-- The state in which the cores within a scope hold no copy of some lines in their instruction caches and no fetched word of them, nor
does a context parked from one of them, and the dies within it hold no copy of a remote one (R282, R284). -/
def State.dropCode (s : State) (scope c : Nat) (runs : List (Nat × Nat)) : State :=
  { s with
    cores := s.cores.map fun k =>
      if inScope scope c k.1 then
        (k.1, { k.2 with
          ileases := k.2.ileases.filter fun e => !inRuns runs e.1
          slots := k.2.slots.map fun t => (t.1, { t.2 with warp := t.2.warp.map fun x => x.dropWords (s.codeIn k.1 x runs) }) })
      else k
    parked := s.parked.map fun e =>
      if inScope scope c e.2.core then (e.1, { e.2 with warp := e.2.warp.dropWords (s.codeIn e.2.core e.2.warp runs) }) else e
    dies := mapPlace (fun d x =>
      if scope = 4 ∨ scope = 5 ∨ d = coreDie c then { x with copies0 := x.copies0.filter fun e => !inRuns runs e.1 } else x) 0 s.dies }

/-- Whether an engine command that a warp issued before a number is not final (R282). -/
def State.engineDue (s : State) (x : Warp) (n : Nat) : Bool :=
  x.engs.any fun e => decide (e < n) && match get s.engOps e with
    | some o => !o.st.final
    | none => false

/-- A core whose record of a warp's workgroup names a scope of publishing (R285). -/
def Core.published (k : Core) (x : Warp) (scope : Nat) : Core :=
  { k with wgs := k.wgs.map fun g => if g.launch = x.launch ∧ some g.index = x.wg then { g with xpubs := g.xpubs ++ [scope] } else g }

/-- The cause of an XPUB's operands: the level of a firmware core, and the length (DEDUCED, log entry 55). -/
def xpubCause (x : Warp) (a n : Nat) : Option Trap :=
  if 2 ^ 30 < n then some (Trap.of 0x084 (memInfo 15 .range))
  else if !x.guarded 1 a n then some (Trap.of 0x143 (memInfo 15 .range))
  else none

/-- A checked XPUB's next part: the warp's earlier accesses are waited for, as FENCE.rel at its scope waits, then each line's state is
changed in turn, and with the last the fetched words are dropped and the word ends (R282). -/
def State.xpubOn (s : State) (c : Cur) (x : Warp) (p : Split) (i : Instr) (scope n : Nat) (runs : List (Nat × Nat)) (pos : Nat) : State :=
  let at_ (pos : Nat) (t : State) : State := t.putWarp c (x.setSplit c.b (some (p.block (.lines n runs pos) (wordOf i))))
  if !s.releaseDone x n scope || s.engineDue x n then at_ pos s
  else match lineAt runs pos with
    | none => s.released_ c true
    | some line =>
      let t := s.publish (s.whoOf c.core x) line scope c.core
      if (lineAt runs (pos + 1)).isSome then at_ (pos + 1) t
      else
        let t := t.dropCode scope c.core runs
        (t.setCore c.core ((t.core c.core).published x scope)).released_ c true

/-- XPUB (R282): its operands and pages are checked once, before any line changes. -/
def execXpub (f : Fmt3) (s : State) : Out :=
  issue (.xpub f) s fun s c x p =>
    let g := x.cguard f.g f.neg
    match p.wait with
    | .lines n runs pos => .ok (s.xpubOn c x p (.xpub f) f.d.toNat n runs pos)
    | _ =>
    match x.readCause p (uniSources g [f.a.toNat, f.b.toNat]) with
    | some t => .error t
    | none =>
      let a := (x.uval p f.a.toNat).toNat % 2 ^ 57
      let n := (x.uval p f.b.toNat).toNat
      let scope := f.d.toNat
      if !g || n = 0 then .ok (s.released_ c false)
      else
        match xpubCause x a n with
        | some t => .error t
        | none =>
          match pagesUnder (s.codeAccess c x) a .range (pageRuns a n) with
          | .error t => .error t
          | .ok pages => .ok (s.xpubOn c x p (.xpub f) scope s.serial (lineRuns pages) 0)

/-- XPROBE (R283): its line's state is read as a load of the line. -/
def execXprobe (f : Fmt3) (s : State) : Out :=
  issue (.xprobe f) s fun s c x p =>
    let g := x.cguard f.g f.neg
    match x.readCause p (uniSources g [f.a.toNat]) with
    | some t => .error t
    | none =>
      let va := (x.uval p f.a.toNat).toNat % 2 ^ 57
      if x.full 1 then .ok s
      else if !g then .ok (s.putWarp c ((x.expectUni 0 f.d.toNat 1 false).advance c.b))
      else if !x.guarded 0 va 1 then .error (Trap.of 0x142 (memInfo 15 .read))
      else
        match s.codeAccess c x va with
        | .error e => .error (Trap.of e.1 (if e.1 = 0x186 then 0 else memInfo e.2 .read))
        | .ok l =>
          let a := { Acc.ofLeaf 0 va 128 l with pa := l.pa / 128 * 128 }
          let o := s.newOp (.xprobe f) 1 .probe 5 false false [a]
          .ok ((s.holdAccs c x [a]).issueOp c ((x.expectUni o.id f.d.toNat 1 true).advance c.b) o)

end Sys2Proof.Machine
end

