-- ==== Sys2Proof/Machine/MemRows.lean ====
section
/-! DEFINITION. The rows of the memory system (R239, R242 to R245, R264, R265): leases, probes, remote writes, evictions and
fills, the host's sectors, and what enters through a Fradon port. -/

namespace Sys2Proof.Machine

open Sys2Proof

/-- A core without its L0's and its instruction cache's lease on a line, each where its cycle satisfies a test. -/
def Core.endLease (k : Core) (line : Nat) (f : Nat → Bool) : Core :=
  let keep (l : List (Nat × Nat)) : List (Nat × Nat) := l.filter fun e => !(e.1 == line && f e.2)
  { k with leases := keep k.leases, ileases := keep k.ileases }

/-- A core without its leases on a line. -/
def Core.unlease (k : Core) (line : Nat) : Core := k.endLease line fun _ => true

/-- LEASE_EXPIRY (R239, R281): a lease ends when its cycle has come. -/
def execLeaseExpiry (c line : Nat) (s : State) : Out :=
  .next (s.setCore c ((s.core c).endLease line fun t => decide (t ≤ s.timeOf (coreDie c))))

/-- REVOKE_PROBE (R239, R281): a holder whose lease has more than 128 cycles left ends it. -/
def execRevokeProbe (c line : Nat) (s : State) : Out :=
  .next (s.setCore c ((s.core c).endLease line fun t => decide (s.timeOf (coreDie c) + 128 < t)))

/-- Whether a core number is a compute core's of a cluster of a die. -/
def inCluster (d cl c : Nat) : Bool := coreDie c == d && coreCluster c == cl && !isFw c

/-- COHERENCE_PROBE (R242): a probed cluster drops a line from its L1 and its cores' L0 and instruction caches. -/
def execCoherenceProbe (d cl line : Nat) (s : State) : Out :=
  let x := s.die d
  let t := s.setDie d { x with l1 := x.l1.filter fun e => e != (cl, line) }
  let drop (k : Nat × Core) : Nat × Core := if inCluster d cl k.1 then (k.1, k.2.unlease line) else k
  .next { t with cores := t.cores.map drop }

/-- Whether a die may apply a stamped message (R264). -/
def Die.mayApply (x : Die) (m : Msg) : Bool :=
  m.stamp.getD m.src 0 == x.clock.getD m.src 0 + 1 &&
    (List.range 8).all fun i => i == m.src || decide (m.stamp.getD i 0 ≤ x.clock.getD i 0)

/-- A die that has applied a message: its copy of the line is gone, and its counter for the sender is the stamp's (R264). -/
def Die.apply (x : Die) (m : Msg) : Die :=
  { x with inbox := x.inbox.erase m, copies0 := del x.copies0 m.line, clock := x.clock.set m.src (m.stamp.getD m.src 0) }

/-- REMOTE_WRITE_APPLY (R264): a die applies a sender's message once its clock allows, and no lease or L1 of the die holds the line
(R239, R242). -/
def execRemoteWriteApply (d src : Nat) (s : State) : Out :=
  let x := s.die d
  match x.inbox.find? fun m => m.src == src && x.mayApply m with
  | some m => .next (if s.heldBack d 16 m.line then s else s.setDie d (x.apply m))
  | none => .next s

/-- The state in which a die has written its copies of a line back and dropped them, but one whose dirty bytes wait for the host
(R244, R245). -/
def State.dropCopies (s : State) (d line : Nat) : State :=
  ((s.die d).copies1.filter fun c => c.line == line).foldl (fun s c =>
    let w := s.sliceWho d c.part
    let s := s.writeBack w line
    if s.owesBack w line then s else s.setDie d ((s.die d).dropCopy1 c.part line)) s

/-- The state in which a line's home holds it no more: memory holds what the home held (R175, R237). -/
def State.leaveHome (s : State) (line : Nat) : State :=
  let s := s.unkey line
  { s with l2old := del s.l2old line }

/-- The state in which a die has evicted its copies of a line, those decoded for each partition among them (R175, R244). -/
def State.evict (s : State) (d line : Nat) : State :=
  let s := s.dropCopies d line
  let x := s.die d
  let s := s.setDie d { x with copies0 := del x.copies0 line, decoded := x.decoded.filter fun e => e.1 % 2 ^ 46 != line }
  if region (128 * line) = 0 ∧ 128 * line / dieBytes ≠ d then s else s.leaveHome line

/-- L2_EVICTION (R175, R244). -/
def execL2Eviction (d line : Nat) (s : State) : Out := .next (s.evict d line)

/-- TYPE1_FILL (R244): a byte of a copy that it does not hold is filled from memory, if memory gives it (R254, R399). -/
def execType1Fill (d line off : Nat) (s : State) : Out :=
  match (s.die d).copies1.find? fun c => c.line == line && (get c.bytes off).isNone with
  | some c =>
    .next (if 128 ≤ off || s.portDown (128 * line) || s.badLines.contains line then s
           else s.setDie d ((s.die d).setCopy1 (s.fillCopy c off 1)))
  | none => .next s

/-- The sectors of a line that the host owns, with their bytes at the grant. -/
def State.sectorsOf (s : State) (line : Nat) : List (Option (List Byte)) := (get s.sectors line).getD [none, none]

/-- HOST_SECTOR_GRANT (R245): the host takes or releases a sector of a line of region 2, through the port that carries it (R3, R398). What
the host wrote while it owned the sector is performed at the home when it releases it, so that a WAITV looks again (R269). -/
def execHostSectorGrant (line sector : Nat) (grant : Bool) (s : State) : Out :=
  let up := (s.portOf (128 * line)).any fun e => e.2.2
  let l := s.sectorsOf line
  if region (128 * line) ≠ 2 || !up || decide (1 < sector) || grant == (l.getD sector none).isSome then .next s
  else if grant then
    .next { s with sectors := put s.sectors line (l.set sector (some (memRead s.mem (128 * line + 64 * sector) 64))) }
  else .next { s with sectors := put s.sectors line (l.set sector none), writes := put s.writes line (s.lineWrites line + 1) }

/-- The agent that a Fradon port is for inbound traffic (R385, R397). -/
def portWho (port : Nat) : Who := { die := port / 4, mid := port / 4 * 256 + 0xB0 + port % 4, part := none, root := none }

/-- FRADON_INBOUND (R245, R264, R265): a write of up to 8 bytes enters through a port as a write of its die; into a sector that
the host owns it is the host's own. -/
def execFradonInbound (port pa n : Nat) (data : DWord) (s : State) : Out :=
  let d := port / 4
  let up := ((s.die d).ports.getD (port % 4) (false, 0)).1
  if !up || n = 0 || 8 < n || 128 < pa % 128 + n || inAperture pa || !s.populated pa then .next s
  else
    let bytes := indexed (toBytes n data.toNat)
    match s.store (portWho port) 2 false pa bytes none with
    | some t => .next t
    | none => .next s

end Sys2Proof.Machine
end

