-- ==== Sys2Proof/Machine/Pieces.lean ====
section
/-! DEFINITION. Accesses that engines, loaders and storers make in chunks: translated and checked whole, then performed piece by piece
(R190, R193, R293, R294, R305), and the energy that they draw (R392). -/

namespace Sys2Proof.Machine

open Sys2Proof

/-- The pieces of a run, translated and checked, or the cause and the faulting address (R293, R294). -/
def State.engPieces (s : State) (w : Who) (k : Kind) (va : Nat) : List (Nat × Nat) → Except (Nat × Nat) (List EngPiece)
  | [] => .ok []
  | (off, n) :: r =>
    let a := (va + off) % 2 ^ 57
    match s.access w [] k false a 1 with
    | .error e => .error (e.1, a)
    | .ok l =>
      match s.engPieces w k va r with
      | .error e => .error e
      | .ok t => .ok ({ pa := l.pa, type := l.type, hs := l.hs, key := (keyOf l.pa l.key).getD noKey, len := n, va := a } :: t)

/-- The key index of a piece. -/
def EngPiece.keyIdx (p : EngPiece) : Option Nat := if p.key = noKey then none else some p.key

/-- The state after the targets of pieces have been asked whether they admit writes, and the first refusal with its address
(R294, R386; DEDUCED, log entry 57). -/
def State.admitPieces (w : Who) : State → List EngPiece → State × Option (Nat × Nat)
  | s, [] => (s, none)
  | s, p :: r =>
    let t := s.passStore w p.type p.pa
    match t.2 with
    | some z => (t.1, some (z.toNat, p.va))
    | none => t.1.admitPieces w r

/-- The state after bytes have been written in a piece whose targets have admitted it; nothing while it must wait. -/
def State.writePiece (s : State) (w : Who) (p : EngPiece) (b : List Byte) : Option State :=
  if s.writable w p.type p.hs p.pa then some (s.writeAt w p.type p.hs p.pa (indexed b) p.keyIdx) else none

/-- Bytes of pieces. -/
def pieceBytes (l : List EngPiece) : Nat := (l.map (·.len)).sum

/-- A partition's account of the shared engines of a die: its collective engine, loaders and storers (Table 3 of R386). -/
def sharedMeter (d p : Nat) : Nat := 64 * d + 16 + p

/-- The state after a meter, and the partition that it counts for, have drawn energy (R292, R392). -/
def State.drawMeter (s : State) (m p : Nat) : State :=
  let e := Config.energy s.free 1
  { s with meters := put s.meters m (metered ((get s.meters m).getD 0) e) }.setPart p ((s.part p).draw e)

end Sys2Proof.Machine
end

