-- ==== Sys2Proof/Machine/TaskRows.lean ====
section
/-! DEFINITION. The rows of the queue controllers, loaders and storers: pops, steals, staging, task start and end, tenant
switches and the return of slots (R22, R177, R178, R182, R185 to R193, R305). -/

namespace Sys2Proof.Machine

open Sys2Proof

/-- A shared agent of a die that acts for a launch (R305, R385). -/
def State.agentOf (s : State) (die l : Nat) : Who :=
  let p := s.tenantOf l
  { die := die, mid := s.proxyMid p, part := some p, root := some (((s.launch l).map (·.root)).getD 0) }

/-- The state with the task of a slot replaced. -/
def State.setTask (s : State) (c w : Nat) (use : SlotUse) (t : Option Task) : State :=
  match s.slot c w with
  | some z => s.setSlot c w { z with use := use, task := t }
  | none => s

/-- Whether a launch still runs. -/
def State.runsLaunch (s : State) (l : Nat) : Bool := ((s.launch l).map fun e => e.st == .running).getD false

/-! ### Staging on a slot (R190, R191) -/

/-- The state in which a slot's staging has failed (R191). -/
def State.failStaging (s : State) (c w : Nat) (l : Nat) (t : Task) (cause info page : Nat) : State :=
  let k := s.core c
  let s := match t.allot with
    | some a => s.setCore c (k.freeAllot a)
    | none => s
  (s.updFor l (handleCore t.handle) (handleEntry t.handle) fun f =>
    { f with st := .failed, value := 0, cause := cause, info := info, page := page }).setTask c w .free none

/-- The state after a staging slot's allotment has changed: it fails, becomes RUNNABLE, or stays as it is (R190, R191). -/
def State.settleStaging (s : State) (c w : Nat) : State :=
  match s.slot c w with
  | none => s
  | some z =>
    match z.use, z.task with
    | .staging, some t =>
      match t.allot with
      | none => s
      | some a =>
        match (s.core c).allotFault a with
        | some f => s.failStaging c w z.launch t 0x207 f.1 f.2
        | none =>
          if (s.core c).staged a then
            (s.updFor z.launch (handleCore t.handle) (handleEntry t.handle) fun u => { u with st := .runnable }).setTask c w
              .runnable (some { t with stageOff := (s.core c).allotOff a })
          else s
    | _, _ => s

/-- Whether what a SPAWN released is performed where a task starts (R195). -/
def State.released (s : State) (c : Nat) (due stamped : List Nat) : Bool :=
  due.isEmpty && covers (s.die (coreDie c)).clock stamped

/-- The state in which a staging slot without ring space tries to take it (R191, R216): its request reaches the queue controller, or is
tried again; a ring that has become too small fails it. -/
def State.tryAllot (s : State) (c w : Nat) : State :=
  match s.slot c w with
  | none => s
  | some z =>
    match z.use, z.task with
    | .staging, some t =>
      if t.allot.isSome || !s.released c t.due t.stamped then s
      else
        if (s.core c).capacity 2 < stagedTotal t.words then s.failStaging c w z.launch t 0x209 (stagedTotal t.words / 128) 0
        else
        match s.askSpace c w (!(s.core c).asks.contains w) t.words z.launch with
        | (u, none) => u
        | (u, some id) => (u.setTask c w .staging (some { t with allot := some id })).settleStaging c w
    | _, _ => s

/-- The state in which a slot has taken a closure: RUNNABLE, STAGING, or FAILED for want of capacity (R185, R191). -/
def State.takeClosure (s : State) (c w : Nat) (q : Closure) (stolen xstolen : Bool) : State :=
  let t := Task.ofClosure .deque stolen xstolen q.handle q.allot 0 q.words q.due q.stamped
  let mark (st : FutState) (s : State) : State :=
    s.updFor q.launch q.core q.entry fun f => { f with st := st, place := c }
  if tileCount q.words = 0 then (mark .runnable s).setTask c w .runnable (some t)
  else if (s.core c).capacity 2 < stagedTotal q.words then
    s.failStaging c w q.launch t 0x209 (stagedTotal q.words / 128) 0
  else
    let s := (mark .staging s).setTask c w .staging (some t)
    let s := s.setCore c { s.core c with asks := (s.core c).asks.filter fun v => v != w }
    if q.allot.isSome then s.settleStaging c w else s.tryAllot c w

/-! ### Pops (R186) -/

/-- A steal in progress for a slot. -/
def Core.stealOf (k : Core) (w : Nat) : Option Steal := k.steals.find? fun e => e.slot == w

/-- A core with the steal in progress for a slot replaced. -/
def Core.setSteal (k : Core) (w : Nat) (e : Option Steal) : Core :=
  { k with steals := (k.steals.filter fun z => z.slot != w) ++ e.toList }

/-- Whether a slot may take a closure from its own deque: it is free, or reserved with no request outstanding (R188). -/
def Core.mayPop (k : Core) (w : Nat) (z : Slot) : Bool :=
  (z.use == .free || z.use == .reserved) && z.warp.isNone && z.wg.isNone && !(k.arrivals.any fun a => a.1 == w) &&
    match k.stealOf w with
    | some e => e.asked.isNone && e.answer.isNone
    | none => true

/-- OWNER_POP (R186, R188): a free slot takes the hottest closure of its launch; a slot that waits for ring space tries
again (R191). -/
def execOwnerPop (c w : Nat) (s : State) : Out :=
  match s.slot c w with
  | none => .next s
  | some z =>
    let k := s.core c
    if z.use == .staging then .next (s.tryAllot c w)
    else if !k.mayPop w z || k.retire || !s.runsLaunch z.launch then .next s
    else
      let t := s.tenantOf z.launch
      match (k.closures t).reverse.find? fun q => q.launch == z.launch with
      | none => .next s
      | some q =>
        let k := (k.setSteal w none).setDeque t ((k.dequeOf t).filter fun e => !e.isFor q.core q.entry)
        .next ((s.setCore c k).takeClosure c w q false false)

/-! ### Steals (R187 to R189) -/

/-- The victims of a core in the order of its rotation (R188), within its partition (R187). -/
def State.victims (s : State) (c : Nat) : List Nat :=
  let d := c / 64
  let base := c / 4 * 4
  let own := (List.range 3).map fun i => base + (c + 1 + i) % 4
  let die := (List.range 60).map fun i => 64 * d + (base % 64 + 4 + i) % 64
  let rest := (List.range 7).flatMap fun j => (List.range 64).map fun i => 64 * ((d + 1 + j) % 8) + i
  (own ++ die ++ rest).filter fun v => s.partOf v == s.partOf c

/-- Whether a core may send steal requests now (R32, R384, R393, R394, R402, R404, R405). -/
def State.maySteal (s : State) (c : Nat) : Bool :=
  let k := s.core c
  !s.limiting && !k.hot && !k.retire && !k.withheld &&
    ((s.partOf c).map fun p => !(s.part p).exh && !(s.part p).quiesce).getD false

/-- A steal that asks the victim at its place of the rotation, or waits 256 cycles after the last (R188). -/
def State.askNext (s : State) (c : Nat) (e : Steal) : Steal :=
  match (s.victims c)[e.pos]? with
  | some v => { e with asked := some v, answer := none, bytes := (s.core c).ringFree }
  | none => { e with pos := 0, asked := none, answer := none, until_ := s.timeOf (coreDie c) + 256 }

/-- STEAL_ROTATION (R187, R188): a free slot is reserved and the first victim asked; a reserved slot goes on when its wait is
over and its partition's budget lets it (DEDUCED, log entry 75). -/
def execStealRotation (c w : Nat) (s : State) : Out :=
  match s.slot c w with
  | none => .next s
  | some z =>
    let k := s.core c
    if isFw c || !s.runsLaunch z.launch || !s.maySteal c || !k.mayPop w z || (s.victims c).isEmpty then .next s
    else
      let e := (k.stealOf w).getD { slot := w, pos := 0, asked := none, answer := none, bytes := 0, until_ := 0 }
      if s.timeOf (coreDie c) < e.until_ then .next s
      else
        let s := s.setCore c (k.setSteal w (some (s.askNext c e)))
        .next (s.setUse c w .reserved)

/-- Whether a closure is eligible for a thief: its own flags and its launch's let the thief take it (R186). -/
def State.eligible (s : State) (q : Closure) (sameDie : Bool) : Bool :=
  let h := (s.launch q.launch).map (·.header)
  !(closureNoSteal q.words || (h.map (·.nosteal)).getD false) &&
    (sameDie || !(closureNoXSteal q.words || (h.map (·.noxsteal)).getD false))

/-- Whether a core's partition is quiesced: no steal is answered with a closure (R384). -/
def State.quiet (s : State) (c : Nat) : Bool := (s.partOf c).any fun p => (s.part p).quiesce

/-- A core's answer to a request for a closure of a launch that fits in a number of bytes (R187). -/
def State.stealAnswer (s : State) (v thief l bytes : Nat) : Option Closure :=
  let k := s.core v
  let same := coreDie v == coreDie thief
  let el := (k.closures (s.tenantOf l)).filter fun q => q.launch == l && s.eligible q same
  if k.retire || k.withheld || s.quiet v || el.length < max 1 (if same then k.lsteal else k.xsteal) then none
  else el.find? fun q => decide (stagedTotal q.words ≤ bytes)

/-- One of a list of places, by free choices: the order in which requests reach a target is not fixed. -/
def pick {α : Type} (n : Nat) : List α → Option α
  | [] => none
  | [a] => some a
  | a :: r => if Config.choice n then some a else pick (n + 1) r

/-- The thieves whose request is on its way to a core: core and slot. -/
def State.asking (s : State) (v : Nat) : List (Nat × Nat) :=
  s.cores.flatMap fun k => (k.2.steals.filter fun e => e.asked == some v && e.answer.isNone).map fun e => (k.1, e.slot)

/-- STEAL_REQUEST (R187): a victim answers one of the requests that have reached it. -/
def execStealRequest (c : Nat) (s : State) : Out :=
  match pick (16 * s.free) (s.asking c) with
  | none => .next s
  | some (thief, w) =>
    let k := s.core thief
    match k.stealOf w, s.slot thief w with
    | some e, some z =>
      let r := s.stealAnswer c thief z.launch e.bytes
      let s := s.setCore thief (k.setSteal w (some { e with answer := some r }))
      match r with
      | none => .next s
      | some q =>
        let t := s.tenantOf z.launch
        let v := (s.core c).dropClosure t q.core q.entry
        .next ((s.setCore c v).updFut t q.core q.entry fun f => { f with place := thief })
    | _, _ => .next s

/-- STEAL_ANSWER (R188): an answer reaches the thief: a closure is on its way, or the next victim is asked. -/
def execStealAnswer (c w : Nat) (s : State) : Out :=
  let k := s.core c
  match k.stealOf w with
  | none => .next s
  | some e =>
    match e.answer with
    | none => .next s
    | some (some q) =>
      .next (s.setCore c { k.setSteal w none with arrivals := k.arrivals ++ [(w, { q with allot := none })] })
    | some none =>
      if !s.runsLaunch (((s.slot c w).map (·.launch)).getD 0) then .next ((s.setCore c (k.setSteal w none)).setUse c w .free)
      else
      let e := { e with pos := e.pos + 1, asked := none, answer := none }
      let go := s.maySteal c || (s.victims c).length ≤ e.pos
      .next (s.setCore c (k.setSteal w (some (if go then s.askNext c e else e))))

/-- CLOSURE_ARRIVAL (R185): a stolen closure reaches its reserved slot, where one that was cancelled frees it. -/
def execClosureArrival (c w : Nat) (s : State) : Out :=
  let k := s.core c
  match get k.arrivals w with
  | none => .next s
  | some q =>
    let s := s.setCore c { k with arrivals := del k.arrivals w }
    if q.cancelled then .next (s.setTask c w .free none)
    else .next (s.takeClosure c w q true (coreDie q.core != coreDie c))

/-! ### Staging ahead and tile loads (R190, R192, R305) -/

/-- The two hottest closures of a core that name tiles and whose launches hold slots on it (R192). -/
def Core.aheadOf (k : Core) : List Closure :=
  ((k.deque.reverse.filter fun q => q.held.isNone && tileCount q.words != 0 && k.slots.any fun t => t.2.launch == q.launch)).take 2

/-- STAGE_AHEAD (R192): ring space for one of the two hottest closures with tiles. -/
def execStageAhead (c i : Nat) (s : State) : Out :=
  let k := s.core c
  match k.aheadOf[i]? with
  | none => .next s
  | some q =>
    if q.allot.isSome || !k.asking.isEmpty || !s.released c q.due q.stamped then .next s
    else
      match s.allotSpace c q.words q.launch with
      | none => .next s
      | some (t, id) =>
        let k := t.core c
        let mark (z : Closure) : Closure := if z.isFor q.core q.entry then { z with allot := some id } else z
        .next (t.setCore c { k with deque := k.deque.map mark })

/-- The stack whose loader or storer serves an address for a core: that which holds it, or one of the core's own die (R190; DESIGN CHOICE,
log entry 88). -/
def stackOf (c pa : Nat) : Nat := if !inAperture pa && region pa == 0 then pa / (dieBytes / 2) else 2 * coreDie c

/-- The page of an address that a loader or storer reports (R191). -/
def pageOf (va : Nat) : Nat := va / 65536 * 65536

/-- An allotment with bytes of a tile moved: entry t counts loads and t + 4 stores. -/
def Allot.move (a : Allot) (t n : Nat) : Allot := { a with moved := put a.moved t n }

/-- An allotment with its first failure noted. -/
def Allot.fail (a : Allot) (cause page : Nat) : Allot :=
  { a with fault := match a.fault with
                    | some f => some f
                    | none => some (cause, page) }

/-- Bytes moved of a tile. -/
def Allot.movedOf (a : Allot) (t : Nat) : Nat := (get a.moved t).getD 0

/-- The draining slot whose task has an allotment. -/
def Core.drainOf (k : Core) (a : Nat) : Option (Nat × Warp) :=
  k.slots.findSome? fun t =>
    match t.2.warp with
    | some x => if t.2.use == .draining && x.task.allot == some a then some (t.1, x) else none
    | none => none

/-- The requests at a loader or storer in order of arrival, less those whose task has been cancelled or has failed to load (R185,
R305). -/
def State.requests (s : State) (q : Nat) : List Request :=
  ((get s.loaders q).getD []).filter fun r => ((s.core r.core).allotOf r.allot).any fun a => q % 2 == 1 || a.fault.isNone

/-- The state with a loader's or storer's requests replaced. -/
def State.setRequests (s : State) (q : Nat) (l : List Request) : State := { s with loaders := put s.loaders q l }

/-- Where the request for a tile stands, if it has reached a loader or storer. -/
def State.requestAt (s : State) (c a t : Nat) : Option (Nat × Request) :=
  s.loaders.findSome? fun q => ((s.requests q.1).find? fun r => r.core == c && r.allot == a && r.tile == t).map fun r => (q.1, r)

/-- A core with a tile failed: a tile that is stored counts as seen to. -/
def Core.failTile (k : Core) (a : Allot) (t : Nat) (store : Bool) (cause va : Nat) : Core :=
  k.mapAllot a.id fun a => (if store then a.move (t + 4) (tileSize a.words t) else a).fail cause (pageOf va)

/-- The pieces that a request moves next, translated and checked: of a load, the rest of its tile up to the next 4 KiB-aligned address;
of a store, the whole tile (R193, R293, R305). -/
def State.tilePieces (s : State) (w : Who) (a : Allot) (t : Nat) (store : Bool) : Except (Nat × Nat) (List EngPiece) :=
  let base := tileAddr a.words t
  let size := tileSize a.words t
  if store then s.engPieces w .write base (linePieces base size)
  else
    let va := (base + a.movedOf t) % 2 ^ 57
    let n := min (size - a.movedOf t) (4096 - va % 4096)
    s.engPieces w .read va (linePieces va n)

/-- The state after a request has reached the loader or storer of the stack that is to serve it, or has failed for want of a page
(R190, R191, R193). -/
def State.arrive (s : State) (c : Nat) (a : Allot) (t : Nat) (store : Bool) : State :=
  match s.tilePieces (s.agentOf (coreDie c) a.launch) a t store with
  | .error e => s.setCore c ((s.core c).failTile a t store e.1 e.2)
  | .ok l =>
    let q := 2 * stackOf c ((l.head?.map (·.pa)).getD 0) + bit store
    s.setRequests q (s.requests q ++ [{ core := c, allot := a.id, tile := t, pieces := [] }])

/-- The state after a loader has moved a piece of an input tile into the ring; a poisoned read fails the load (R190, R191). -/
def State.loadPiece (s : State) (w : Who) (c : Nat) (a : Allot) (t : Nat) (p : EngPiece) : Option State :=
  (s.load w p.type p.hs p.pa p.len p.keyIdx).map fun r =>
    let k := r.1.core c
    match r.2.2 with
    | some z => r.1.setCore c (k.failTile a t false z.toNat p.va)
    | none => r.1.setCore c ((k.viewWrite 2 (a.off + tileOff a.words t + a.movedOf t) r.2.1).mapAllot a.id (·.move t (a.movedOf t + p.len)))

/-- The state after a storer has moved a piece of an output tile to memory (R193). -/
def State.storePiece (s : State) (w : Who) (c sl : Nat) (x : Warp) (a : Allot) (t : Nat) (p : EngPiece) : Option State :=
  let done := a.movedOf (t + 4)
  (s.writePiece w p ((s.core c).viewRead 2 (a.off + tileOff a.words t + done) p.len)).map fun u =>
    (u.setCore c ((u.core c).mapAllot a.id (·.move (t + 4) (done + p.len)))).setWarp c sl
      { x with stamped := restamp s u w.die x.stamped }

/-- The state in which a request is served from its start on: its pieces are translated and checked, and, before a tile is stored, the
words of the ring that it stands in and the targets of all its pieces (R193, R215, R386). A load whose next chunk another stack holds
goes to that stack's loader. -/
def State.startRequest (s : State) (q : Nat) (r : Request) (rest : List Request) (a : Allot) (store : Bool) : State :=
  let w := s.agentOf (q / 4) a.launch
  match s.tilePieces w a r.tile store with
  | .error e => (s.setRequests q rest).setCore r.core ((s.core r.core).failTile a r.tile store e.1 e.2)
  | .ok l =>
    if !store && stackOf r.core ((l.head?.map (·.pa)).getD 0) != q / 2 then
      let z := 2 * stackOf r.core ((l.head?.map (·.pa)).getD 0)
      (s.setRequests q rest).setRequests z (s.requests z ++ [r])
    else
      let bad := store && (s.core r.core).viewBad 2 (a.off + tileOff a.words r.tile) (tileSize a.words r.tile)
      match if bad then (s, some (0x382, tileAddr a.words r.tile)) else if store then s.admitPieces w l else (s, none) with
      | (t, some e) => (t.setRequests q rest).setCore r.core ((t.core r.core).failTile a r.tile store e.1 e.2)
      | (t, none) => t.setRequests q ({ r with pieces := l } :: rest)

/-- The state after the loader or storer has worked on the request at its head. -/
def State.serve (s : State) (q : Nat) (r : Request) (rest : List Request) (a : Allot) : State :=
  let store := q % 2 == 1
  match r.pieces with
  | [] => s.startRequest q r rest a store
  | p :: l =>
    let w := s.agentOf (q / 4) a.launch
    let next := if store then match (s.core r.core).drainOf a.id with
        | some (sl, x) => s.storePiece w r.core sl x a r.tile p
        | none => none
      else s.loadPiece w r.core a r.tile p
    match next with
    | none => s
    | some t =>
      let left := ((t.core r.core).allotOf a.id).any fun b =>
        b.movedOf (r.tile + if store then 4 else 0) < tileSize b.words r.tile && (store || b.fault.isNone)
      t.setRequests q (if left then { r with pieces := l } :: rest else rest)

/-- LOADER_REQUEST (R190, R193, R305): the load or store of a tile reaches the loader or storer of its stack, or that one, which serves its
requests in the order in which they reached it, works on it. -/
def execLoaderRequest (c a t : Nat) (s : State) : Out :=
  let k := s.core c
  match k.allotOf a with
  | none => .next s
  | some z =>
    let load := z.tiles.contains t && z.fault.isNone && decide (z.movedOf t < tileSize z.words t)
    let store := !z.tiles.contains t && (k.drainOf a).any (fun x => x.2.dueWrites.isEmpty) && tileOut z.words t &&
      decide (t < tileCount z.words) && decide (z.movedOf (t + 4) < tileSize z.words t)
    if !load && !store then .next s
    else
      match s.requestAt c a t with
      | none => .next (s.arrive c z t store)
      | some (q, r) =>
        match s.requests q with
        | [] => .next s
        | h :: rest =>
          if h != r then .next s
          else .next ((s.drawMeter (sharedMeter (q / 4) (s.tenantOf z.launch)) (s.tenantOf z.launch)).serve q r rest z)

/-- TILE_LOAD_DONE (R190, R191): a tile stands whole in the ring, or its load failed. -/
def execTileLoadDone (c a t : Nat) (s : State) : Out :=
  let k := s.core c
  match k.allotOf a with
  | none => .next s
  | some z =>
    let s := if z.tiles.contains t && decide (tileSize z.words t ≤ z.movedOf t) then
        s.setCore c (k.mapAllot a fun z => { z with tiles := z.tiles.erase t })
      else s
    .next ((s.core c).slots.foldl (fun s e =>
      if (e.2.task.bind (·.allot)) == some a then s.settleStaging c e.1 else s) s)

/-! ### Task start and end (R182, R185, R193) -/

/-- TASK_START (R182): a RUNNABLE task starts on its slot, an acquire of what its SPAWN released (R195); on a core that is being retired,
once the spare stands in its place (R394). -/
def execTaskStart (c w : Nat) (s : State) : Out :=
  match s.slot c w with
  | none => .next s
  | some z =>
    match z.use, z.task, s.launch z.launch with
    | .runnable, some t, some e =>
      if !s.runsLaunch z.launch || !s.released c t.due t.stamped || (s.core c).retire then .next s
      else
        let x := Warp.startTask e z.launch 0 z.area t
        let s := s.updFor z.launch (handleCore t.handle) (handleEntry t.handle) fun f => { f with st := .running }
        .next (s.setSlot c w { z with use := .busy, warp := some x, task := none, windex := 0 })
    | _, _, _ => .next s

/-- Whether every output tile of an allotment has been written or has failed. -/
def Allot.stored (a : Allot) : Bool :=
  (tilesWhere a.words tileOut).all fun t => decide (tileSize a.words t ≤ a.movedOf (t + 4))

/-- STORER_DONE (R193, R195) for a slot: write-back has ended and its writes are performed; the task resolves or fails, or the
inline call completes, and the ring space is freed. -/
def execStorerDone (c a : Nat) (s : State) : Out :=
  match s.slot c a with
  | none => .next s
  | some z =>
    match z.warp with
    | none => .next s
    | some x =>
      let k := s.core c
      let all := x.task.allot.bind k.allotOf
      if z.use != .draining || x.status == .failed || !x.dueWrites.isEmpty || !((all.map (·.stored)).getD true) then .next s
      else if !(tilesWhere x.task.words tileOut).isEmpty && !s.applied x.stamped then .next s
      else
        let fault := all.bind (·.fault)
        let s := (match x.task.allot with
          | some id => s.setCore c (k.freeAllot id)
          | none => s).setUse c a .busy
        let u : Cur := { core := c, slot := a, b := false }
        .next (if x.inline.isEmpty then
            s.updFor z.launch (handleCore x.task.handle) (handleEntry x.task.handle) fun f =>
              match fault with
              | some e => { f with st := .failed, value := 0, cause := 0x208, info := e.1, page := e.2, stamped := s.releaseClock c x }
              | none => { f with st := .resolved, value := x.task.result, stamped := s.releaseClock c x }
          else s.finishInline u x x.task.result fault)

/-! ### Tenants and slots (R22, R177, R178) -/

/-- TENANT_SWITCH (R178): the outgoing record area is parked and the incoming one taken. -/
def execTenantSwitch (c t : Nat) (s : State) : Out :=
  let k := s.core c
  if k.tenant = t then .next s
  else
    let area := (get k.parkedAreas t).getD ([], [])
    .next (s.setCore c { k with parkedAreas := put (del k.parkedAreas t) k.tenant (k.deque, k.futures), tenant := t,
                                deque := area.1, futures := area.2 })

/-- Whether a task of a launch is queued, staging or running somewhere. -/
def State.hasTask (s : State) (l : Nat) : Bool :=
  (s.cores.any fun k =>
    k.2.deque.any (fun q => q.launch == l) || k.2.parkedAreas.any (fun a => a.2.1.any fun q => q.launch == l) ||
      k.2.arrivals.any (fun q => q.2.launch == l) ||
      k.2.steals.any (fun e => match e.answer with
        | some (some q) => q.launch == l
        | _ => false) ||
      k.2.slots.any fun t => t.2.launch == l && (t.2.warp.isSome || t.2.task.isSome)) ||
    s.parked.any fun e => e.2.launch == l

/-- Whether every engine operation of a launch is final. -/
def State.enginesDone (s : State) (l : Nat) : Bool := s.engOps.all fun e => e.2.launch != l || e.2.st.final

/-- Whether nothing of a launch remains. -/
def State.launchGone (s : State) (l : Nat) : Bool := !s.hasTask l && s.enginesDone l

/-- Whether a launch has failed or been cancelled. -/
def State.ended (s : State) (l : Nat) : Bool := (s.launch l).any fun e => e.st == .failed || e.st == .cancelled

/-- Whether a core may return a launch's slots: no workgroup, task or request of it is left there (R22), and, of one that failed or is
cancelled, nothing anywhere (R370). -/
def State.mayReturn (s : State) (c l : Nat) : Bool :=
  let k := s.core c
  (!s.ended l || s.launchGone l) &&
  !k.wgs.any (fun g => g.launch == l) && !(k.dequeOf (s.tenantOf l)).any (fun q => q.launch == l) &&
    (k.slots.all fun t => t.2.launch != l || ((t.2.use == .free || t.2.use == .reserved) && t.2.warp.isNone &&
      !(k.arrivals.any fun a => a.1 == t.1) &&
      match k.stealOf t.1 with
      | some e => e.asked.isNone
      | none => true)) &&
    !s.parked.any (fun e => e.2.core == c && e.2.launch == l && (e.2.wg.isNone || !e.2.out)) && k.slots.any fun t => t.2.launch == l

/-- A future entry after its launch's slots are returned: free, but for an engine operation, which frees it when it is final
(R184, R292). -/
def Future.slotsReturned (f : Future) : Future := if f.st == .engine then { f with orphan := true } else f.drop

/-- A core whose mode vector is released: STAGE and RING macros empty, CACHE lines dropped (R210), the array clear (R309). -/
def Core.releaseModes (k : Core) : Core :=
  { k with modeVec := none, allots := [], head := 0, tail := 0, asks := [], rings := [], ringWait := [], leases := [],
           matrix := Matrix.clear }

/-- The state in which a core's mode vector is released; its cluster holds in L1 no line that a CACHE macro of the core held (R210; DESIGN
CHOICE, log entry 90). -/
def State.releaseModes (s : State) (c : Nat) : State :=
  let d := s.die (coreDie c)
  let s := s.setCore c (s.core c).releaseModes
  if (s.core c).modes.contains 0 then s.setDie (coreDie c) { d with l1 := d.l1.filter fun e => e.1 != coreCluster c } else s

/-- SLOT_RETURN (R22, R88, R184, R210, R370). -/
def execSlotReturn (c l : Nat) (s : State) : Out :=
  if !s.mayReturn c l then .next s
  else
    let k := s.core c
    let t := s.tenantOf l
    let gone := (k.slots.filter fun e => e.2.launch == l).map (·.1)
    let k := { k with slots := k.slots.filter fun e => e.2.launch != l,
                      steals := k.steals.filter fun e => !gone.contains e.slot,
                      groups := k.groups.filter fun g => g.launch != l }
    let k := k.setTable t ((k.tableOf t).map fun e => if e.2.launch = l then (e.1, e.2.slotsReturned) else e)
    let s := s.setCore c k
    .next ((if k.slots.isEmpty then s.releaseModes c else s).failedStop l)

end Sys2Proof.Machine
end

