-- ==== Sys2Proof/Machine/Engines.lean ====
section
/-! DEFINITION. The copy and collective engines (R289 to R304) and QFENCE (R268): commands, queues, chunks, collectives and how
operations end. -/

namespace Sys2Proof.Machine

open Sys2Proof

/-! ### Queues (R289) -/

/-- A copy queue of a core's cluster. -/
def copyQueue (c q : Nat) : Nat := (coreDie c * 16 + coreCluster c) * 4 + q
/-- A collective queue of a partition on a die. -/
def collQueue (d p q : Nat) : Nat := 512 + (d * 32 + p) * 2 + q
/-- The mark of an operation that stands in no engine queue: a COPY packet's (R362). -/
def noQueue : Nat := 4096

/-- An engine queue. -/
def State.engQueue (s : State) (q : Nat) : EngQueue := (get s.engQueues q).getD { places := [], done := 0 }

/-- The state with an engine queue replaced. -/
def State.setEngQueue (s : State) (q : Nat) (e : EngQueue) : State := { s with engQueues := put s.engQueues q e }

/-- Places of a queue (Table 1 of R289). -/
def queuePlaces (q : Nat) : Nat := if q < 512 then 64 else 32

/-- Whether a queue has room for an entry. -/
def State.queueRoom (s : State) (q : Nat) : Bool := decide ((s.engQueue q).places.length < queuePlaces q)

/-- Whether a place stands at the head of every queue that holds it. -/
def State.headEverywhere (s : State) (p : Place) : Bool :=
  s.engQueues.all fun e => !e.2.places.contains p || e.2.places.head? == some p

/-- The state after the join entries at the head of all their queues have gone (R268): fuel bounds their number. -/
def State.passJoins : Nat → State → State
  | 0, s => s
  | n + 1, s =>
    match s.engQueues.findSome? fun e => match e.2.places.head? with
      | some (.join j) => if s.headEverywhere (.join j) then some j else none
      | _ => none
      with
    | none => s
    | some j =>
      State.passJoins n { s with engQueues := s.engQueues.map fun e =>
        (e.1, { e.2 with places := e.2.places.filter fun p => p != .join j }) }

/-- Whether an operation stands at the head of its queue, or in none. -/
def State.atHead (s : State) (o : EngOp) : Bool :=
  o.queue == noQueue || (s.engQueue o.queue).places.head? == some (.cmd o.id)

/-- The state with an engine operation replaced. -/
def State.setEng (s : State) (o : EngOp) : State := { s with engOps := put s.engOps o.id o }

/-- The agent that an engine operation is for memory (R385). -/
def State.engWho (s : State) (o : EngOp) : Who :=
  { die := o.die,
    mid := if o.queue < 512 then o.die * 256 + 0x80 + o.queue / 4 % 16 else s.proxyMid o.part,
    part := some o.part, root := some o.root }

/-! ### Extents and control words (R293, R298, R301) -/

/-- Whether two runs of 57-bit addresses share an address. -/
def extentsMeet (a n b m : Nat) : Bool :=
  n != 0 && m != 0 && (decide ((b + 2 ^ 57 - a) % 2 ^ 57 < n) || decide ((a + 2 ^ 57 - b) % 2 ^ 57 < m))

/-- LENGTH of CPY (Table 4 of R298). -/
def cpyLength (w : Nat) : Nat := bitsOf 12 24 w * 2 ^ 24 + bitsOf 24 0 w

/-- Rows and bytes per row of a copy. -/
def copyShape (two : Bool) (w : Nat) : Nat × Nat := if two then (bitsOf 16 40 w, bitsOf 24 0 w) else (1, cpyLength w)

/-- Bytes that a copy writes. -/
def copyBytes (two : Bool) (w : Nat) : Nat := (copyShape two w).1 * (copyShape two w).2

/-- The extent of a copy's side with a pitch (R293). -/
def copyExtent (two : Bool) (w pitch : Nat) : Nat :=
  let z := copyShape two w
  if z.1 = 0 ∨ z.2 = 0 then 0 else (z.1 - 1) * pitch + z.2

/-- Whether CPY or CPY2D accepts its control and pitch words and addresses (R293, R298, R299). -/
def copyOk (two : Bool) (dst src w pitch : Nat) : Bool :=
  let dp := bitsOf 32 0 pitch
  let sp := bitsOf 32 32 pitch
  let z := copyShape two w
  bitsOf 4 60 w == 0 && bitsOf 2 58 w != 0 && bitsOf 4 36 w == 0 &&
    (if two then bitsOf 12 24 w == 0 && !(decide (1 < z.1) && decide (dp < z.2)) && decide (z.1 * z.2 < 2 ^ 36)
     else bitsOf 16 40 w == 0) &&
    !extentsMeet dst (copyExtent two w dp) src (copyExtent two w sp)

/-- COMM, OP and COUNT of COLL (Table 5 of R301). -/
def collComm (w : Nat) : Nat := bitsOf 8 48 w
/-- OP of COLL. -/
def collOp (w : Nat) : Nat := bitsOf 2 46 w
/-- COUNT of COLL. -/
def collCount (w : Nat) : Nat := bitsOf 32 0 w
/-- Bytes of a source element of COLL. -/
def collSrcSize (w : Nat) : Nat := if flag 44 w then 4 else 2
/-- Bytes of a destination element of COLL. -/
def collDstSize (w : Nat) : Nat := if flag 43 w then 4 else 2
/-- Elements that a member reads (R301). -/
def collReads (w p : Nat) : Nat := if collOp w = 2 then collCount w / p else collCount w
/-- Elements that a member writes (R301). -/
def collWrites (w p : Nat) : Nat := if collOp w = 1 then collCount w / p else collCount w

/-- Whether COLL accepts its control word and extents, for P members where its communicator is set; an all-reduce's extents do not
depend on P (R301, R307). -/
def collOk (dst src w : Nat) (p : Option Nat) : Bool :=
  let apart (p : Nat) : Bool :=
    let n := collReads w p * collSrcSize w
    let m := collWrites w p * collDstSize w
    !extentsMeet dst m src n || (collOp w == 0 && dst == src && n == m)
  bitsOf 4 60 w == 0 && bitsOf 2 58 w != 0 && !flag 57 w && collOp w != 3 && !(collOp w == 2 && flag 45 w) &&
    bitsOf 11 32 w == 0 &&
    match p with
    | none => collOp w != 0 || apart 1
    | some p => (collOp w == 0 || collCount w % p == 0) && apart p

/-! ### Issuing a command (R290) -/

/-- A new engine operation. -/
def EngOp.new (id op queue launch part die root : Nat) (warp : Option (Nat × Nat)) (fut : Option (Nat × Nat))
    (pkt : Option (Nat × Nat)) (dst src : Nat) (ctl pitch : DWord) (members : List (Nat × Nat)) : EngOp :=
  { id := id, op := op, queue := queue, launch := launch, part := part, die := die, root := root, warp := warp, fut := fut,
    pkt := pkt, dst := dst, src := src, ctl := ctl, pitch := pitch, members := members, nth := 0, st := .travelling, done := 0,
    chunk := 0, reads := [], writes := [], buf := [], source := [], cancel := false, fail := none, stamped := List.replicate 8 0 }

/-- The state after a warp has issued an engine command that passed its checks (R290): an entry, its handle pushed, the ENG
counter raised and the command on its way; 0x282 without a free entry. -/
def State.issueCommand (s : State) (c : Cur) (x : Warp) (i : Instr) (op queue dst src : Nat) (ctl pitch : DWord)
    (members : List (Nat × Nat)) : Except Trap State :=
  let t := s.tenantOf x.launch
  let k := s.core c.core
  match freeEntry (k.tableOf t) with
  | none => .error (Trap.of 0x282 0)
  | some e =>
    let f := (k.fut t e).allocate .engine x.launch c.core
    let root := ((s.launch x.launch).map (·.root)).getD 0
    let o := s.newOp i 3 (.engine s.serial) 5 false false []
    let eng := EngOp.new s.serial op queue x.launch t (coreDie c.core) root (some (c.core, c.slot)) (some (c.core, e)) none
      dst src ctl pitch members
    match x.split c.b with
    | none => .ok s
    | some p =>
      let y := (x.writeUni c.b p false 0 true (handleOf c.core e f.gen)).advance c.b
      .ok (((s.setCore c.core (k.setFut t e f)).setEng eng).issueOp c { y with engs := y.engs ++ [s.serial] } o)

/-- A word that issues an engine command: its sources, then its checks and the command. -/
def engineWord (i : Instr) (f : Fmt4) (s : State) (op : Nat) (codes : List Nat)
    (go : State → Cur → Warp → Split → Except Trap State) : Out :=
  onCompute i s op fun s c x p =>
    let g := x.cguard f.g f.neg
    match x.readCause p (uniSources g codes) with
    | some t => .error t
    | none =>
      if x.full 3 then .ok s
      else if !g then .ok (s.putWarp c (x.uniResult c.b p false 0 false 0))
      else go s c x p

/-- A copy command. -/
def copyWord (i : Instr) (f : Fmt4) (s : State) (two : Bool) : Out :=
  engineWord i f s (if two then 0x51 else 0x50)
    ([f.a.toNat, f.b.toNat, f.c.toNat] ++ if two then [f.c.toNat + 1] else []) fun s c x p =>
    let dst := (x.uval p f.a.toNat).toNat % 2 ^ 57
    let src := (x.uval p f.b.toNat).toNat % 2 ^ 57
    let w := x.uval p f.c.toNat
    let pitch := if two then x.uval p (f.c.toNat + 1) else 0
    if !copyOk two dst src w.toNat pitch.toNat then .error (Trap.of 0x281 (w.toNat % 2 ^ 32))
    else s.issueCommand c x i (if two then 0x51 else 0x50) (copyQueue c.core (bitsOf 2 56 w.toNat)) dst src w pitch []

/-- CPY (R299). -/
def execCpy (f : Fmt4) (s : State) : Out := copyWord (.cpy f) f s false
/-- CPY2D (R299). -/
def execCpy2d (f : Fmt4) (s : State) : Out := copyWord (.cpy2d f) f s true

/-- The members of a communicator slot of a partition's collective engine on a die, if it is set (R300). -/
def State.comm (s : State) (d p n : Nat) : Option (List (Nat × Nat)) := get s.comms (d, p, n)

/-- The cause of a COLL command, in the order of R307, or its members. -/
def State.collCause (s : State) (d p dst src : Nat) (w : Nat) : Except (Nat × Nat) (List (Nat × Nat)) :=
  let m := s.comm d p (collComm w)
  let size := max (collDstSize w) (collSrcSize w)
  if dst % size != 0 || src % size != 0 then .error (0x104, 15)
  else if !collOk dst src w (m.map (·.length)) then .error (0x281, w % 2 ^ 32)
  else
    match m with
    | none => .error (0x283, collComm w)
    | some l => if l.contains (d, p) then .ok l else .error (0x283, collComm w)

/-- COLL (R301). -/
def execColl (f : Fmt4) (s : State) : Out :=
  engineWord (.coll f) f s 0x52 [f.a.toNat, f.b.toNat, f.c.toNat] fun s c x p =>
    let dst := (x.uval p f.a.toNat).toNat % 2 ^ 57
    let src := (x.uval p f.b.toNat).toNat % 2 ^ 57
    let w := x.uval p f.c.toNat
    let t := s.tenantOf x.launch
    match s.collCause (coreDie c.core) t dst src w.toNat with
    | .error e => .error (Trap.of e.1 e.2)
    | .ok l => s.issueCommand c x (.coll f) 0x52 (collQueue (coreDie c.core) t (bitsOf 1 56 w.toNat)) dst src w 0 l

/-! ### EQSTAT and QFENCE (R304, R268) -/

/-- Whether two operations are of one collective: the same slot with the same members, and the same number on that communicator
(R300; DEDUCED, log entry 59). -/
def EngOp.matches_ (o e : EngOp) : Bool :=
  e.op == 0x52 && e.members == o.members && collComm e.ctl.toNat == collComm o.ctl.toNat && e.nth == o.nth && e.st != .travelling

/-- The operation of a member of a collective that has entered its queue (R300, R303; DEDUCED, log entry 58). -/
def State.peer (s : State) (o : EngOp) (m : Nat × Nat) : Option EngOp :=
  (s.engOps.find? fun e => o.matches_ e.2 && (e.2.die, e.2.part) == m).map (·.2)

/-- Whether a member has reached a collective: its operation stands at the head of its queue, runs or has run (R303). -/
def State.reached (s : State) (e : EngOp) : Bool :=
  match e.st with
  | .queued => s.atHead e && !e.cancel && e.fail.isNone
  | .travelling => false
  | _ => true

/-- Whether every member has reached a collective. -/
def State.allReached (s : State) (o : EngOp) : Bool :=
  o.members.all fun m => (s.peer o m).any s.reached

/-! ### What a collective writes (R301, R302) -/

/-- A source element widened to F32 (R302). -/
def collTerm (f32 : Bool) (b : List Byte) : Nat := if f32 then ofBytes b else ofBytes b * 65536

/-- Terms combined in ascending rank order (R302). -/
def collCombine (isMax : Bool) : List Nat → Nat
  | [] => 0
  | a :: r => r.foldl (fun x y =>
      if isMax then (F32.minMax true x y).bits else (F32.add .rne 0 (F32.unpack x) (F32.unpack y)).bits) a

/-- An F32 result in the destination's format: RNE, not saturating (R302). -/
def collConvert (f32 : Bool) (v : Nat) : List Byte :=
  if f32 then toBytes 4 (F32.convert .rne 0 false (F32.unpack v)).bits
  else toBytes 2 (BF16.convert .rne 0 false (F32.unpack v)).bits

/-- The operations of all members of a collective, in rank order. -/
def State.peers (s : State) (o : EngOp) : List EngOp := o.members.filterMap (s.peer o)

/-- The rank of an operation's member. -/
def EngOp.rank (o : EngOp) : Nat := (o.members.findIdx? fun m => m == (o.die, o.part)).getD 0

/-- N ÷ P of a collective. -/
def EngOp.share (o : EngOp) : Nat := collCount o.ctl.toNat / o.members.length

/-- Element j of a member's source, once the member has read it. -/
def EngOp.term (o : EngOp) (j : Nat) : Option Nat :=
  let n := collSrcSize o.ctl.toNat
  (o.source.find? fun r => decide (r.1 ≤ j * n) && decide ((j + 1) * n ≤ r.1 + r.2.length)).map fun r =>
    collTerm (flag 44 o.ctl.toNat) ((r.2.drop (j * n - r.1)).take n)

/-- Element i of a member's destination, from the sources of the members in rank order; nothing while one of them has not read what
it takes (R301, R302). -/
def EngOp.element (o : EngOp) (peers : List EngOp) (i : Nat) : Option (List Byte) :=
  let w := o.ctl.toNat
  let v :=
    if collOp w = 2 then (peers[i / o.share]?).bind fun e => e.term (i % o.share)
    else
      let j := if collOp w = 1 then o.rank * o.share + i else i
      let terms := peers.filterMap fun e => e.term j
      if terms.length = o.members.length then some (collCombine (flag 45 w) terms) else none
  v.map (collConvert (flag 43 w))

/-- The bytes of a member's present chunk; nothing while a member has not read what they take. -/
def State.collBytes (s : State) (o : EngOp) : Option (List Byte) :=
  let z := collDstSize o.ctl.toNat
  let l := (List.range (o.chunk / z)).filterMap fun i => o.element (s.peers o) (o.done / z + i)
  if l.length = o.chunk / z then some l.flatten else none

/-- Whether a member's chunk waits for what other members are still to read. -/
def State.awaitsPeers (s : State) (o : EngOp) : Bool :=
  o.reads.isEmpty && !o.writes.isEmpty && o.buf.isEmpty && (s.collBytes o).isNone

/-- EQSTAT's result for a queue (Table 7 of R304). -/
def State.eqstat (s : State) (q : Nat) : DWord :=
  let e := s.engQueue q
  let stall := match e.places.head? with
    | some (.join _) => true
    | some (.cmd i) => (match get s.engOps i with
      | some o => o.op == 0x52 && (!s.allReached o || s.awaitsPeers o)
      | none => false)
    | none => false
  BitVec.ofNat 64 (e.done % 65536 * 2 ^ 32 + bit stall * 2 ^ 16 + e.places.length)

/-- The queue that EQSTAT's selector names. -/
def eqSelect (c p a : Nat) : Option Nat :=
  if a < 4 then some (copyQueue c a) else if a = 0x10 ∨ a = 0x11 then some (collQueue (coreDie c) p (a - 0x10)) else none

/-- EQSTAT (R304); level 2 of a firmware core executes no engine word (R380). -/
def execEqstat (f : Fmt3) (s : State) : Out :=
  issue (.eqstat f) s fun s c x p =>
    let g := x.cguard f.g f.neg
    if g && isFw c.core && (x.fw.map (·.level)) == some 2 then .error (Trap.of 0x141 0)
    else match x.readCause p (uniSources g [f.a.toNat]) with
    | some t => .error t
    | none =>
      let v := match eqSelect c.core (s.tenantOf x.launch) ((x.uval p f.a.toNat).toNat % 256) with
        | some q => s.snapshot c.core 0x53 0xFFFF0001007F (s.eqstat q)
        | none => 0
      .ok (s.putWarp c (x.uniResult c.b p f.nw f.d.toNat g v))

/-- The queues that QFENCE's mask names (R268). -/
def fenceQueues (c p m : Nat) : List Nat :=
  ((List.range 4).filter fun i => flag i m).map (copyQueue c) ++
    ((List.range 2).filter fun i => flag (4 + i) m).map (collQueue (coreDie c) p)

/-- Whether a command of a warp's slot is still on its way to one of some queues. -/
def State.travelling (s : State) (c w : Nat) (qs : List Nat) : Bool :=
  s.engOps.any fun e => e.2.st == .travelling && e.2.warp == some (c, w) && qs.contains e.2.queue

/-- QFENCE (R268). -/
def execQfence (f : FmtI) (s : State) : Out :=
  onCompute (.qfence f) s 0x49 fun s c x p =>
    if !x.cguard f.g f.neg then .ok (s.retire c)
    else
      let qs := fenceQueues c.core (s.tenantOf x.launch) f.imm.toNat
      if s.travelling c.core c.slot qs || !qs.all s.queueRoom then .ok (s.hold_ c x p (.qfence f))
      else
        let t := qs.foldl (fun t q =>
          let e := t.engQueue q
          t.setEngQueue q { e with places := e.places ++ [.join s.serial] }) s.fresh
        .ok ((State.passJoins 256 t).released_ c false)

/-! ### Accepting (R290) -/

/-- The state in which a warp's engine operation has left the counter ENG. -/
def State.lowerEng (s : State) (o : EngOp) : State :=
  match o.warp with
  | none => s
  | some (c, w) =>
    match s.warp c w with
    | none => s
    | some x => s.setWarp c w { x with ops := leaveOps [] (x.mapOp o.id fun z => { z with done := true }).ops }

/-- The engine's target number for its access table (R386, R388). -/
def EngOp.target (o : EngOp) : Nat := if o.queue < 512 then o.queue / 4 % 16 else 16

/-- The master ID of who issues an engine command. -/
def State.issuerMid (s : State) (o : EngOp) : Nat :=
  match o.warp with
  | some (c, _) => coreDie c * 256 + c % 64
  | none => s.proxyMid o.part

/-- The communicator of a COLL at its member: the slot, and the members that it was set to (R300, R381). -/
def EngOp.communicator (o : EngOp) : (Nat × Nat × Nat) × List (Nat × Nat) := ((o.die, o.part, collComm o.ctl.toNat), o.members)

/-- The number that a COLL takes as it enters its queue: those on one communicator are numbered in order (R300). -/
def State.collNth (s : State) (o : EngOp) : Nat := (get s.collSeq o.communicator).getD 0

/-- ENGINE_ACCEPT (R290, R386): a command enters its queue; a refused one fails (R294). -/
def execEngineAccept (i : Nat) (s : State) : Out :=
  match get s.engOps i with
  | none => .next s
  | some o =>
    let before := s.engOps.any fun e => e.2.st == .travelling && e.2.warp == o.warp && e.2.queue == o.queue && decide (e.1 < i) &&
      !e.2.cancel && e.2.fail.isNone
    if o.st != .travelling || o.cancel || o.fail.isSome || before || o.queue == noQueue then .next s
    else if !s.admits o.die o.target (s.issuerMid o) 2 o.dst then
      .next (((s.refuse o.die o.target (s.issuerMid o) 2 o.dst).setEng { o with fail := some (0x144, 0) }).lowerEng o)
    else if !s.queueRoom o.queue then .next s
    else
      let q := s.engQueue o.queue
      let s := s.setEngQueue o.queue { q with places := q.places ++ [.cmd i] }
      if o.op = 0x52 then
        let n := s.collNth o
        let s := { s with collSeq := put s.collSeq o.communicator (n + 1) }
        .next ((s.setEng { o with st := .queued, nth := n }).lowerEng o)
      else .next ((s.setEng { o with st := .queued }).lowerEng o)

/-! ### Chunks (R293, R294, R298 to R302) -/

/-- Bytes of an operation's destination. -/
def EngOp.total (o : EngOp) : Nat :=
  if o.op = 0x52 then collWrites o.ctl.toNat o.members.length * collDstSize o.ctl.toNat
  else copyBytes (o.op == 0x51) o.ctl.toNat

/-- The destination, source and length of the chunk after the first `done` bytes of a copy (R293). -/
def EngOp.copyChunk (o : EngOp) : Nat × Nat × Nat :=
  let two := o.op == 0x51
  let row := (copyShape two o.ctl.toNat).2
  let r := if two then o.done / row else 0
  let off := if two then o.done % row else o.done
  let d := (o.dst + r * bitsOf 32 0 o.pitch.toNat + off) % 2 ^ 57
  (d, (o.src + r * bitsOf 32 32 o.pitch.toNat + off) % 2 ^ 57, min (row - off) (4096 - d % 4096))

/-- The state in which an operation has failed at an address. -/
def State.failEng (s : State) (o : EngOp) (cause va : Nat) : State :=
  s.setEng { o with fail := some (cause, va / 65536 % 2 ^ 32), reads := [], writes := [], chunk := 0 }

/-- The state in which the next chunk of an operation has been translated and checked, and its bytes are to be read and written:
the sources' runs, then the destination's (R293). -/
def State.startChunk (s : State) (o : EngOp) (src : Nat) (runs : List (Nat × Nat)) (dst n : Nat) : State :=
  let w := s.engWho o
  match s.engPieces w .read src runs with
  | .error e => s.failEng o e.1 e.2
  | .ok rs =>
    match s.engPieces w .write dst (linePieces dst n) with
    | .error e => s.failEng o e.1 e.2
    | .ok ws => s.setEng { o with reads := rs, writes := ws, chunk := n, buf := [] }

/-- An operation with the bytes of a piece of its source read. -/
def EngOp.keep (o : EngOp) (p : EngPiece) (b : List Byte) : EngOp :=
  if o.op = 0x52 then { o with source := o.source ++ [((p.va + 2 ^ 57 - o.src) % 2 ^ 57, b)] } else { o with buf := o.buf ++ b }

/-- The state after an operation has read its next piece; a poisoned read fails it (R294). -/
def State.engRead (s : State) (o : EngOp) (p : EngPiece) (r : List EngPiece) : State :=
  match s.load (s.engWho o) p.type p.hs p.pa p.len p.keyIdx with
  | none => s
  | some (t, _, some z) => t.failEng o z.toNat p.va
  | some (t, b, none) => t.setEng ({ o with reads := r }.keep p b)

/-- The state after an operation has written its next piece; before the first of a chunk the targets of all its pieces are asked, so
that a refused chunk is not written (R294, R386), and after the last the chunk is complete. -/
def State.engWrite (s : State) (o : EngOp) (p : EngPiece) (r : List EngPiece) : State :=
  let w := s.engWho o
  match if pieceBytes (p :: r) = o.chunk then s.admitPieces w (p :: r) else (s, none) with
  | (t, some e) => t.failEng o e.1 e.2
  | (t, none) =>
    match t.writePiece w p (o.buf.take p.len) with
    | none => t
    | some u =>
      let o := { o with writes := r, buf := o.buf.drop p.len, stamped := restamp t u o.die o.stamped }
      u.setEng (if r.isEmpty then { o with done := o.done + o.chunk, chunk := 0 } else o)

/-- One step of a running copy. -/
def State.copyStep (s : State) (o : EngOp) : State :=
  match o.reads, o.writes with
  | p :: r, _ => s.engRead o p r
  | [], p :: r => s.engWrite o p r
  | [], [] =>
    let z := o.copyChunk
    if o.total ≤ o.done || o.cancel then s else s.startChunk o z.2.1 (linePieces z.2.1 z.2.2) z.1 z.2.2

/-! ### Collectives (R302, R303) -/

/-- The fields of a control word on which members must agree (R303). -/
def collShape (w : Nat) : Nat × Nat := (bitsOf 5 43 w, collCount w)

/-- Whether a member's command differs from another's (R303). -/
def State.mismatch (s : State) (o : EngOp) : Bool := (s.peers o).any fun e => collShape e.ctl.toNat != collShape o.ctl.toNat

/-- Whether a collective has ended by the failure or cancelling of a member other than one (R303). -/
def State.peerEnded (s : State) (o : EngOp) : Bool := (s.peers o).any fun e => e.id != o.id && e.st == .gone false

/-- The elements of a member's source that a run of its destination's elements takes: first place and number (R301). -/
def EngOp.taken (o : EngOp) (i n : Nat) : List (Nat × Nat) :=
  let p := o.members.length
  if collOp o.ctl.toNat = 1 then (List.range p).map fun r => (r * o.share + i, n)
  else if collOp o.ctl.toNat = 2 then
    let a := max i (o.rank * o.share)
    let b := min (i + n) ((o.rank + 1) * o.share)
    if a < b then [(a - o.rank * o.share, b - a)] else []
  else [(i, n)]

/-- The state in which the next chunk of a member has been checked: its destination, and those elements of its source that the chunk's
own elements take, at their ranks (R293, R301; DEDUCED, log entry 59). -/
def State.startCollChunk (s : State) (o : EngOp) : State :=
  let w := o.ctl.toNat
  let va := (o.dst + o.done) % 2 ^ 57
  let n := min (o.total - o.done) (4096 - va % 4096)
  let runs := (o.taken (o.done / collDstSize w) (n / collDstSize w)).flatMap fun e =>
    let off := e.1 * collSrcSize w
    (linePieces (o.src + off) (e.2 * collSrcSize w)).map fun p => (off + p.1, p.2)
  s.startChunk o o.src runs va n

/-- One step of a running member of a collective, which every member has reached: it reads what its chunk takes of its own source, waits
for what the others read of theirs, and writes. -/
def State.collStep (s : State) (o : EngOp) : State :=
  if s.mismatch o then s.setEng { o with fail := some (0x284, collComm o.ctl.toNat) }
  else
    match o.reads, o.writes with
    | p :: r, _ => s.engRead o p r
    | [], p :: r =>
      if o.buf.isEmpty then
        match s.collBytes o with
        | some b => s.setEng { o with buf := b }
        | none => s
      else s.engWrite o p r
    | [], [] => if o.total ≤ o.done || o.cancel || s.peerEnded o then s else s.startCollChunk o

/-- The meter of an operation (Table 3 of R386). -/
def EngOp.meter (o : EngOp) : Nat := if o.queue < 512 then 64 * o.die + o.queue / 4 % 16 else sharedMeter o.die o.part

/-- Whether an operation may run on: it stands at its queue's head, started or not asked to stop, and every member of its collective has
reached it (R303). -/
def State.engRuns (s : State) (o : EngOp) : Bool :=
  s.atHead o && o.fail.isNone && (o.st == .running || (o.st == .queued && !o.cancel)) && (o.op != 0x52 || s.allReached o)

/-- ENGINE_CHUNK (R293): the operation at the head of its queue starts, or does its next piece of work. -/
def execEngineChunk (i : Nat) (s : State) : Out :=
  match get s.engOps i with
  | none => .next s
  | some o =>
    if !s.engRuns o then .next s
    else
      let o := { o with st := .running }
      let s := (s.setEng o).drawMeter o.meter o.part
      .next (if o.op = 0x52 then s.collStep o else s.copyStep o)

/-! ### How operations end (R291, R295, R303) -/

/-- How an operation ends now, if it does: its future's state and value; a member of a collective that has ended elsewhere only fails
(R303). -/
def State.engEnd (s : State) (o : EngOp) : Option (FutState × Nat) :=
  if o.fail.isSome then some (.failed, 0)
  else if o.op == 0x52 && o.st != .travelling && s.peerEnded o then none
  else if o.st == .travelling || o.st == .queued then (if o.cancel then some (.cancelled, 0) else none)
  else if !o.reads.isEmpty || !o.writes.isEmpty then none
  else if o.total ≤ o.done && (o.op != 0x52 || !s.mismatch o) then some (.resolved, o.done)
  else if o.cancel then some (.cancelled, o.done)
  else none

/-- A future entry after its operation is final (R291, R292). -/
def Future.engFinal (f : Future) (st : FutState) (v : Nat) (fail : Option (Nat × Nat)) (stamped : List Nat) : Future :=
  if f.orphan then f.drop
  else { f with st := st, value := BitVec.ofNat 64 v, cause := (fail.map (·.1)).getD 0, info := (fail.map (·.2)).getD 0,
                stamped := stamped }

/-- A packet, or one inside it, whose operation has resolved. -/
def Pkt.engDone (p : Pkt) (id : Nat) : Pkt :=
  { p with complete := p.complete || p.eng == some id,
           inner := p.inner.map fun n => if n.eng = some id then { n with complete := true } else n }

/-- The state after a packet's engine operation has ended (R362, R375). -/
def State.engPacket (s : State) (o : EngOp) (st : FutState) : State :=
  match o.pkt with
  | none => s
  | some (q, num) =>
    match st with
    | .resolved => { s with queues := mapAt s.queues q fun e => { e with pkts := e.pkts.map fun p => p.engDone o.id } }
    | .failed => s.stopQueue q num ((o.fail.map (·.1)).getD 0) 5
    | _ => s

/-- The state without the operations of a collective all of whose members are final. -/
def State.purge (s : State) (o : EngOp) : State :=
  if o.members.all fun m => (s.peer o m).any fun e => e.st.final
  then { s with engOps := s.engOps.filter fun e => !(o.matches_ e.2 && e.2.st.final) }
  else s

/-- The state after an engine operation has become final. -/
def State.engFinish (s : State) (o : EngOp) (st : FutState) (v : Nat) : State :=
  let q := s.engQueue o.queue
  let s := if o.queue = noQueue then s
           else s.setEngQueue o.queue { places := q.places.filter fun p => p != .cmd o.id,
                                        done := q.done + bit (q.places.contains (.cmd o.id)) }
  let clock := joinClocks o.stamped (s.die o.die).clock
  let s := match o.fut with
    | some (c, e) => s.updFut o.part c e fun f => f.engFinal st v o.fail clock
    | none => s
  let s := { s with launches := mapAt s.launches o.launch fun l => { l with stamped := joinClocks l.stamped clock } }
  let s := (s.engPacket o st).lowerEng o
  let s := if o.op = 0x52 ∧ o.st ≠ .travelling then (s.setEng { o with st := .gone (st == .resolved) }).purge o
           else { s with engOps := del s.engOps o.id }
  State.passJoins 256 s

/-- ENGINE_RESOLVE (R266, R291): an operation that has ended, its writes performed at every die, becomes final. -/
def execEngineResolve (i : Nat) (s : State) : Out :=
  match get s.engOps i with
  | none => .next s
  | some o =>
    if o.st.final || !s.applied o.stamped then .next s
    else
      match s.engEnd o with
      | some (st, v) => .next (s.engFinish o st v)
      | none => .next s

/-- COLL_PEER_END (R303): a member of a collective that has ended elsewhere fails. -/
def execCollPeerEnd (i : Nat) (s : State) : Out :=
  match get s.engOps i with
  | none => .next s
  | some o =>
    if o.op = 0x52 ∧ (o.st = .queued ∨ o.st = .running) ∧ o.fail.isNone ∧ s.peerEnded o then
      .next (s.setEng { o with fail := some (if s.mismatch o then 0x284 else 0x285, collComm o.ctl.toNat), writes := [], reads := [] })
    else .next s

end Sys2Proof.Machine
end

