-- ==== Sys2Proof/Machine/Firmware.lean ====
section
/-! DEFINITION. The words that only firmware cores execute: LVCALL, LVRET and RGSET (R378, R379). -/

namespace Sys2Proof.Machine

open Sys2Proof

/-- A range guard that nothing has set. -/
def Guard.off : Guard := { en := false, base := 0, len := 0, r := false, w := false, x := false }

/-- A range guard of a firmware core (R379). -/
def Fw.guard (f : Fw) (n : Nat) : Guard := (get f.guards n).getD Guard.off

/-- The range guards' enable, one bit for each of the eight (R378). -/
def Fw.enables (f : Fw) : BitVec 8 :=
  BitVec.ofNat 8 ((List.range 8).foldl (fun a n => if (f.guard n).en then a + 2 ^ n else a) 0)

/-- A firmware core with the guards' enable replaced. -/
def Fw.setEnables (f : Fw) (g : BitVec 8) : Fw :=
  { f with guards := f.guards.map fun e => (e.1, { e.2 with en := g.getLsbD e.1 }) }

/-- A warp on another level, with a value pushed on that level's k queue (R100, R378) and its split at an address. -/
def Warp.toLevel (x : Warp) (b : Bool) (f : Fw) (lvl : Nat) (v : DWord) (pc : VA) : Warp :=
  let y := x.setLevel f lvl
  match y.split b with
  | none => y
  | some p => y.writeUni b { p with pc := pc, wait := .none, buf := [] } false 0 true v

/-- A word for a firmware core (R50): 0x141 elsewhere. -/
def fwWord (i : Instr) (f : Fmt3) (s : State) (codes : List Nat) (body : State → Cur → Warp → Split → Fw → Except Trap State) : Out :=
  issue i s fun s c x p =>
    match x.fw with
    | none => .error (Trap.of 0x141 0)
    | some w =>
      let g := x.cguard f.g f.neg
      match x.readCause p (uniSources g codes) with
      | some t => .error t
      | none => if g then body s c x p w else .ok (s.putWarp c (x.advance c.b))

/-- LVCALL (R378). -/
def execLvcall (f : Fmt3) (s : State) : Out :=
  fwWord (.lvcall f) f s [f.a.toNat, f.b.toNat] fun s c x p w =>
    let a := (x.uval p f.a.toNat).toNat
    let t := a % 4
    if a / 65536 != 0 || bitsOf 6 2 a != 0 || t == 3 then .error (Trap.of 0x083 0)
    else if t == w.level || 4 ≤ w.stack.length then .error (Trap.of 0x141 0)
    else
      let u := { w with stack := { ret := p.pc + 4, level := w.level, guards := w.enables } :: w.stack }
      .ok (s.putWarp c (x.toLevel c.b u t (x.uval p f.b.toNat)
        (BitVec.ofNat 57 (w.vec.toNat + 0x4000 * t + 64 * bitsOf 8 8 a))))

/-- LVRET (R378). -/
def execLvret (f : Fmt3) (s : State) : Out :=
  fwWord (.lvret f) f s [f.a.toNat] fun s c x p w =>
    match w.stack with
    | [] => .error (Trap.of 0x141 0)
    | e :: r =>
      .ok (s.putWarp c (x.toLevel c.b ({ w with stack := r }.setEnables e.guards) e.level (x.uval p f.a.toNat) e.ret))

/-- Whether a length is one that RGSET takes: a multiple of 4 KiB up to 2⁴⁸ (R379). -/
def guardLength (n : Nat) : Bool := n % 4096 == 0 && decide (n ≤ 2 ^ 48)

/-- RGSET (R379). -/
def execRgset (f : Fmt3) (s : State) : Out :=
  fwWord (.rgset f) f s [f.a.toNat, f.b.toNat] fun s c x p w =>
    let a := x.uval p f.a.toNat
    let b := (x.uval p f.b.toNat).toNat
    if w.level == 2 then .error (Trap.of 0x141 0)
    else if keepBits a 0x01FFFFFFFFFFF0E7 != a then .error (Trap.of 0x083 0)
    else if !guardLength b then .error (Trap.of 0x084 0)
    else
      let g : Guard := { en := b != 0, base := BitVec.ofNat 57 (bitsOf 45 12 a.toNat * 4096), len := b, r := a.getLsbD 5,
                         w := a.getLsbD 6, x := a.getLsbD 7 }
      .ok (s.putWarp c ({ x with fw := some { w with guards := put w.guards (bitsOf 3 0 a.toNat) g } }.advance c.b))

end Sys2Proof.Machine
end

