-- ==== Sys2Proof/Machine/Traps.lean ====
section
/-! DEFINITION. TRAP, BKPT, ERET, SAVEC, RSTC and SIGS (R344 to R351), and the rows that deliver asynchronous causes and serve
debug stops and requests (R337, R342, R354, R355). -/

namespace Sys2Proof.Machine

open Sys2Proof

/-- Whether a warp is in a handler; on a firmware core, whether level 0 has a previous level to return to (R377). -/
def Warp.inHandler (x : Warp) : Bool := x.frozen.isSome || (x.fw.bind (·.prev)).isSome

/-! ### TRAP and BKPT (R344, R345) -/

/-- A cause whose TPC is the next word (R338). -/
def Trap.next (cause info : Nat) : Trap := { cause := cause, mask := none, info := info, after := true, word := true }

/-- TRAP (R344). -/
def execTrap (f : FmtI) (s : State) : Out :=
  issue (.trap f) s fun s c x _ =>
    if x.cguard f.g f.neg then .error (Trap.next 0x342 f.imm.toNat) else .ok (s.putWarp c (x.advance c.b))

/-- BKPT (R345). -/
def execBkpt (f : Fmt3) (s : State) : Out :=
  issue (.bkpt f) s fun s c x _ =>
    if !x.cguard f.g f.neg || x.inHandler then .ok (s.putWarp c (x.advance c.b))
    else if (s.core c.core).dbg.getLsbD 1 then .ok (s.putWarp c { x.advance c.b with debug := .asked c.b })
    else .error (Trap.next 0x341 0)

/-! ### ERET (R346) -/

/-- The state after a handler of a compute core's warp has ended on a frozen state (R341, R346). -/
def State.eret (s : State) (c : Cur) (x : Warp) (z : Frozen) : State :=
  ((s.setCore c.core ((s.core c.core).clearStall c.slot z.cause)).checkLeases c.core z.loaded).putWarp c (x.thaw z)

/-- A firmware core's warp back on its previous level, at TPC (R377). -/
def Warp.eretFw (x : Warp) (f : Fw) (lvl : Nat) : Warp :=
  let y := x.setLevel f lvl
  { y with a := y.a.map fun p => { p with pc := x.tpc.setWidth 57 &&& ~~~3, wait := .none, buf := [], cur := [] },
           fw := y.fw.map fun g => { g with prev := none } }

/-- ERET (R346, R377). -/
def execEret (f : Fmt3) (s : State) : Out :=
  issue (.eret f) s fun s c x _ =>
    let g := x.cguard f.g f.neg
    if !x.inHandler then .error (Trap.of 0x305 0)
    else if !g then .ok (s.putWarp c (x.advance c.b))
    else
      match x.fw with
      | some w => .ok (s.putWarp c (x.eretFw w (w.prev.getD 0)))
      | none => match x.frozen with
        | some z => .ok (s.eret c x z)
        | none => .error (Trap.of 0x305 0)

/-! ### SAVEC, RSTC and SIGS (R347 to R351) -/

/-- A word for a handler alone: 0x305 elsewhere; in a firmware core's handler it is one of a unit that the core lacks, and so has an
effect only with a false guard: none. -/
def handlerWord (i : Instr) (s : State) (op : Nat) (body : State → Cur → Warp → Split → Frozen → Except Trap State) : Out :=
  let outside := match s.warp s.cur.core s.cur.slot with
    | some x => !x.inHandler
    | none => true
  if outside then issue i s fun _ _ _ _ => .error (Trap.of 0x305 0)
  else onCompute i s op fun s c x p =>
    match x.frozen with
    | none =>
      match x.readCause p (uniSources false [bitsOf 6 13 (wordOf i).toNat]) with
      | some t => .error t
      | none => .ok (s.putWarp c (x.advance c.b))
    | some z => body s c x p z

/-- The area that an operand of SAVEC or RSTC names, or 0x104 (R347). -/
def State.areaOf (s : State) (c : Cur) (a : DWord) (k : Kind) : Except Trap Nat :=
  let area := if a = 0 then s.ownArea c else a.toNat % 2 ^ 57
  if area % 128 != 0 then .error (Trap.of 0x104 (memInfo 15 k)) else .ok area

/-- A warp whose SAVEC has ended: its saved area is recorded and the dirty mark cleared. -/
def Warp.savedAt (x : Warp) (area : Nat) : Warp :=
  { x with savedArea := some area, dirty := false, frozen := x.frozen.map fun z => { z with saved := true } }

/-- The state after a SAVEC that has written its context: it ends once its writes are performed at .pkg. -/
def State.endSave (s : State) (c : Cur) (i : Instr) (area : Nat) : State :=
  match (s.warp c.core c.slot).bind fun x => (x.split c.b).map fun p => (x, p) with
  | none => s
  | some (x, p) =>
    if s.applied x.stamped then (s.putWarp c (x.savedAt area)).released_ c false else s.holdAt c x p i 1

/-- SAVEC (R347): it holds while the warp's batches and counters have not drained, and then until its writes are performed. -/
def execSavec (f : Fmt3) (s : State) : Out :=
  handlerWord (.savec f) s 0x72 fun s c x p z =>
    let g := x.cguard f.g f.neg
    match x.readCause p (uniSources g [f.a.toNat]) with
    | some t => .error t
    | none =>
      if !g then .ok (s.putWarp c (x.advance c.b))
      else
        match s.areaOf c (x.uval p f.a.toNat) .write with
        | .error t => .error t
        | .ok area =>
          if p.heldAt = 1 then .ok (s.endSave c (.savec f) area)
          else
            let r := s.withdrawRings c x
            if !r.1.drained c r.2 then .ok (r.1.hold_ c r.2 p (.savec f))
            else
              match r.1.writeCtx c r.2 z area false with
              | .cause u t => .ok ((s.keepLog u).take c t (wordOf (.savec f)))
              | .wait => .ok (r.1.hold_ c r.2 p (.savec f))
              | .done u _ => .ok (u.endSave c (.savec f) area)

/-- RSTC (R350). -/
def execRstc (f : Fmt3) (s : State) : Out :=
  handlerWord (.rstc f) s 0x73 fun s c x p z =>
    let g := x.cguard f.g f.neg
    match x.readCause p (uniSources g [f.a.toNat]) with
    | some t => .error t
    | none =>
      if !g then .ok (s.putWarp c (x.advance c.b))
      else
        match s.areaOf c (x.uval p f.a.toNat) .read with
        | .error t => .error t
        | .ok area => (s.readCtx c x z area).out s c (.rstc f) fun u y => u.putWarp c (y.advance c.b)

/-- SIGS (R351). -/
def execSigs (f : Fmt3) (s : State) : Out :=
  handlerWord (.sigs f) s 0x74 fun s c x _ z =>
    if !x.cguard f.g f.neg then .ok (s.putWarp c (x.advance c.b))
    else if !z.saved || x.dirty then .error (Trap.of 0x306 0)
    else .ok (s.park c x)

/-! ### Delivery at a boundary whose word does not issue (R342) -/

/-- Whether a split stands blocked at a word that it has issued (R28), so that only a row reaches its boundary. -/
def Split.blocked (p : Split) : Bool :=
  match p.wait with
  | .none => false
  | .hold _ _ => false
  | .fence _ => false
  | .lines _ _ _ => false
  | .again => false
  | _ => true

/-- The state after what is delivered at the boundary of a warp's first split: nothing where its word has a fetch or decode
cause, which comes first. -/
def State.deliverAt (s : State) (c w : Nat) : State :=
  match s.warp c w with
  | none => s
  | some x =>
    let u : Cur := { core := c, slot := w, b := x.first }
    match x.split u.b with
    | none => s
    | some p =>
      if p.blocked then (s.deliver u).getD s
      else match s.atPc u with
        | .ready t _ _ => (t.deliver u).getD s
        | _ => s

/-- Whether a warp on a slot satisfies a test. -/
def State.warpHas (s : State) (c w : Nat) (f : Warp → Bool) : Bool :=
  match s.warp c w with
  | some x => f x
  | none => false

/-- ASYNC_DELIVERY (R342). -/
def execAsyncDelivery (c w : Nat) (s : State) : Out := .next (s.deliverAt c w)

/-- DEBUG_STOP (R355): a stop that is due is made. -/
def execDebugStop (c w : Nat) (s : State) : Out :=
  .next (if s.warpHas c w fun x => x.stopDue.isSome then s.deliverAt c w else s)

/-! ### Resume and step (R355) -/

/-- A core whose DBGCTL has taken its command; `err` sets RESERR. -/
def Core.cmdDone (k : Core) (err : Bool) : Core :=
  { k with dbg := keepBits k.dbg 0xFC0006 ||| BitVec.ofNat 64 (bit err * 16) }

/-- The state after a resume (CMD 2) or a step (CMD 3) of the slot that DBGCTL names: the context is read back, and what fails
its checks sets RESERR. -/
def State.readBack (s : State) (c w cmd : Nat) : State :=
  let k := s.core c
  let u : Cur := { core := c, slot := w, b := false }
  let finish (s : State) (err : Bool) : State := s.setCore c ((s.core c).cmdDone err)
  if bitsOf 2 16 k.dbg.toNat ≠ cmd || bitsOf 6 18 k.dbg.toNat ≠ w then s
  else
    match (s.warp c w).bind fun x => x.frozen.map fun z => (x, z) with
    | none => finish s false
    | some (x, z) =>
      match x.debug with
      | .stopped b =>
        match s.readCtx u x z (s.ownArea u) with
        | .wait => s
        | .cause u _ => finish (s.keepLog u) true
        | .done t y =>
          match y.frozen with
          | none => finish s true
          | some v =>
            let r := y.unfreeze v
            finish (t.setWarp c w { r with debug := if cmd = 2 then .none else .stepping b false }) false
      | _ => finish s false

/-- DEBUG_RESUME (R355). -/
def execDebugResume (c w : Nat) (s : State) : Out := .next (s.readBack c w 2)

/-- DEBUG_STEP (R355, R95): the stopped split is to issue one word (DEDUCED, log entry 62). -/
def execDebugStep (c w : Nat) (s : State) : Out := .next (s.readBack c w 3)

/-! ### Requests (R337, R354) -/

/-- The state in which a cause is sent to the warp of a slot. -/
def State.requestOne (s : State) (c w cause : Nat) : State :=
  match s.warp c w with
  | some x => if isFw c then s else s.setWarp c w (x.request cause)
  | none => s

/-- PREEMPT_REQUEST (R337). -/
def execPreemptRequest (c w : Nat) (s : State) : Out := .next (s.requestOne c w 0x301)

/-- Whether thermal migration may move a workgroup: none of its warps has used a ring (R219), and every XPUB of theirs reaches
further than its core (R285). -/
def Workgroup.movable (g : Workgroup) : Bool := !g.rings && g.xpubs.all fun s => decide (2 ≤ s)

/-- MIGRATE_REQUEST (R354): 0x302 is sent to each warp of a workgroup that may be moved. -/
def execMigrateRequest (c l i : Nat) (s : State) : Out :=
  .next (if (s.core c).wgs.any fun g => g.launch == l && g.index == i && g.movable then
      s.requestAll 0x302 fun j t => j == c && t.launch == l && t.wg == some i
    else s)

end Sys2Proof.Machine
end

