-- ==== Sys2Proof/Machine/Packets.lean ====
section
/-! DEFINITION. Packets of command queues (R361 to R364, R406): their fields and validity, which one may start, and the command
processor's accesses to memory. -/

namespace Sys2Proof.Machine

open Sys2Proof

/-! ### Fields (Tables 3 and 4) -/

/-- The header word. -/
def pktHead (b : List Byte) : Nat := numAt b 0 8
/-- TYPE. -/
def pktType (b : List Byte) : Nat := bitsOf 8 0 (pktHead b)
/-- CSCOPE. -/
def pktScope (b : List Byte) : Nat := bitsOf 3 8 (pktHead b)
/-- ORDER. -/
def pktOrder (b : List Byte) : Bool := flag 13 (pktHead b)
/-- COMPL. -/
def pktCompl (b : List Byte) : Bool := flag 14 (pktHead b)
/-- PUB. -/
def pktPub (b : List Byte) : Bool := flag 15 (pktHead b)
/-- TSCOPE. -/
def pktTscope (b : List Byte) : Nat := bitsOf 3 16 (pktHead b)
/-- PRED. -/
def pktPred (b : List Byte) : Nat := bitsOf 4 20 (pktHead b)
/-- An address in a packet. -/
def pktVa (b : List Byte) (off : Nat) : Nat := numAt b off 8 % 2 ^ 57

/-- Whether a header word, and the completion words where COMPL and the kind of packet give them, are valid (R361, R373). -/
def headOk (node : Bool) (b : List Byte) : Bool :=
  let h := pktHead b
  let scope (n : Nat) : Bool := 1 ≤ n && n ≤ 5
  bitsOf 40 24 h == 0 && !flag 19 h && bitsOf 2 11 h == 0 && pktType b ≤ 8 &&
    (pktPred b == 0 || pktType b == 1) && (if pktPred b = 0 then pktTscope b == 0 else scope (pktTscope b)) &&
    (!pktPub b || pktType b == 1) && (if pktCompl b then scope (pktScope b) else pktScope b == 0) &&
    (if node then !pktCompl b && numAt b 56 8 == 0
     else if pktCompl b then numAt b 48 8 % 8 == 0 else numAt b 48 16 == 0)

/-- The used entries of an ANDBAR: hardware queue and threshold. -/
def andEntries (b : List Byte) : List (Nat × Nat) :=
  ((List.range 5).map fun i => numAt b (8 + 8 * i) 8).filterMap fun e =>
    if flag 63 e then some (bitsOf 12 51 e, bitsOf 51 0 e) else none

/-- Whether a queue of a partition has a number. -/
def State.queueIn (s : State) (part n : Nat) : Bool := match get s.queues n with
  | some q => q.part == part
  | none => false

/-- A grid extent of a LAUNCH. -/
def launchExtent (b : List Byte) (axis : Nat) : Nat := numAt b (16 + 4 * axis) 4

/-- Whether a body holds only values that Table 4 admits. -/
def State.bodyOk (s : State) (part : Nat) (b : List Byte) : Bool :=
  let t := pktType b
  let zero (off n : Nat) : Bool := numAt b off n == 0
  if t = 0 then zero 8 40
  else if t = 1 then
    numAt b 8 8 % 64 == 0 && (List.range 3).all (fun i => 1 ≤ launchExtent b i && launchExtent b i ≤ 1048576) &&
      numAt b 28 1 ≤ 15 && zero 29 3
  else if t = 2 then numAt b 24 8 < 2 ^ 36 && zero 32 16
  else if t = 3 then zero 32 16
  else if t = 4 then numAt b 32 1 ≤ 1 && zero 33 15
  else if t = 5 then numAt b 24 1 ≤ 1 && zero 25 23
  else if t = 6 then
    (List.range 5).all (fun i => flag 63 (numAt b (8 + 8 * i) 8) || zero (8 + 8 * i) 8) && !(andEntries b).isEmpty &&
      (andEntries b).all fun e => s.queueIn part e.1
  else if t = 7 then numAt b 8 8 % 64 == 0 && 1 ≤ numAt b 16 4 && numAt b 16 4 ≤ 65536 && zero 20 28
  else numAt b 8 1 ≤ 1 && zero 10 6 && (numAt b 8 1 == 1 || numAt b 24 4 ≤ 4096) && zero 28 20

/-- Whether a packet is valid (R361, R362). -/
def State.pktOk (s : State) (part : Nat) (node : Bool) (b : List Byte) : Bool := headOk node b && s.bodyOk part b

/-! ### The command processor's accesses (R359, R406) -/

/-- The agent that serves a queue (R385). -/
def State.queueWho (s : State) (q : Queue) : Who :=
  { die := q.die, mid := s.proxyMid q.part, part := some q.part, root := some q.root }

/-- Whether the targets of pieces admit writes: the state after they were asked, and the first refusal. -/
def State.passPieces (w : Who) : State → List (Nat × Nat × Leaf) → State × Option (BitVec 10)
  | s, [] => (s, none)
  | s, (_, _, l) :: r =>
    let t := s.passStore w l.type l.pa
    if t.2.isSome then t else t.1.passPieces w r

/-- The state after bytes have been written in pieces whose targets have admitted them; nothing while it must wait. -/
def State.putPieces (w : Who) (bytes : List Byte) : State → List (Nat × Nat × Leaf) → Option State
  | s, [] => some s
  | s, (off, m, l) :: r =>
    if s.writable w l.type l.hs l.pa then
      (s.writeAt w l.type l.hs l.pa (indexed ((bytes.drop off).take m)) (keyOf l.pa l.key)).putPieces w bytes r
    else none

/-- Bytes written by a command processor, all or none; a refused write is a cause (R406). -/
def State.cpWrite (s : State) (w : Who) (va : Nat) (bytes : List Byte) : Sync Unit :=
  match s.pagesOf w [] .write va (linePieces va bytes.length) with
  | .error t => .cause s t
  | .ok l =>
    match s.passPieces w l with
    | (u, some z) => .cause u (Trap.of z.toNat 15)
    | (u, none) => match u.putPieces w bytes l with
      | none => .wait
      | some v => .done v ()

/-- n bytes read by a command processor. -/
def State.cpRead (s : State) (w : Who) (va n : Nat) : Sync (List Byte) := s.readRun w [] va n

/-- What serving a packet gives: it waits, or a state, in which the queue may have stopped. -/
abbrev Served := Option State

/-- The state after an access of a packet; a cause stops the queue with code 3 (R406). -/
def Sync.served {α : Type} (r : Sync α) (n num : Nat) (f : State → α → Served) : Served :=
  match r with
  | .wait => none
  | .cause u t => some (u.stopQueue n num t.cause 3)
  | .done t a => f t a

/-! ### Which packet starts next (R363, R372) -/

/-- A packet in its place: the number of the queue's packet, the place inside that one, its bytes, and whether R363 lets it
start. -/
structure PktAt where
  num : Nat
  idx : Option Nat
  bytes : List Byte
  ok : Bool
  deriving DecidableEq, Repr

/-- Whether a packet is an INDIRECT, or a GRAPH RUN: what runs inside decides when it is complete. -/
def Pkt.holds (p : Pkt) : Bool := pktType p.bytes == 7 || (pktType p.bytes == 8 && numAt p.bytes 8 1 == 0)

/-- How many packets stand inside one. -/
def Pkt.count (p : Pkt) : Nat := if pktType p.bytes = 7 then numAt p.bytes 16 4 else p.version.length

/-- Whether a packet has completed or been discarded. -/
def Pkt.finished (p : Pkt) : Bool :=
  p.complete || p.discarded || (p.started && p.holds && p.inner.length == p.count && p.inner.all (·.complete))

/-- Whether R363 lets a packet start: `prev` is the type of the packet before it and whether that has completed, and `all` says
whether every earlier one has. -/
def mayStart (b : List Byte) (prev : Option (Nat × Bool)) (all : Bool) : Bool :=
  (match prev with
   | some (t, fin) => fin || decide (t < 4)
   | none => true) && (all || !(pktOrder b || pktType b == 5))

/-- The first packet of an indirect buffer that has not started; `all` says whether every earlier packet of the queue has
completed. -/
def nextInner (num : Nat) (all : Bool) (prev : Option (Nat × Bool)) : List Inner → Option PktAt
  | [] => none
  | i :: r =>
    if i.started then nextInner num (all && i.complete) (some (pktType i.bytes, i.complete)) r
    else some { num := num, idx := some i.idx, bytes := i.bytes, ok := mayStart i.bytes prev all }

/-- The first packet that has not started, in the order of the queue and of the indirect buffer that it runs. -/
def nextIn (all : Bool) (prev : Option (Nat × Bool)) : List Pkt → Option PktAt
  | [] => none
  | p :: r =>
    if p.started && pktType p.bytes == 7 && !p.finished then nextInner p.num all none p.inner
    else if p.started || p.discarded then nextIn (all && p.finished) (some (pktType p.bytes, p.finished)) r
    else some { num := p.num, idx := none, bytes := p.bytes, ok := mayStart p.bytes prev all }

/-- The packet of a queue that starts next. -/
def Queue.next (q : Queue) : Option PktAt := nextIn true none q.pkts

/-- A packet of a type that has started and not completed, in a queue or in its indirect buffer, and does not stop the queue. -/
def Queue.waiting (q : Queue) (t : Nat) : Option PktAt :=
  q.pkts.findSome? fun p =>
    if p.discarded || !p.started || p.halted.isSome then none
    else if pktType p.bytes = t && !p.complete then some { num := p.num, idx := none, bytes := p.bytes, ok := true }
    else if pktType p.bytes = 7 then
      (p.inner.find? fun i => i.started && !i.complete && pktType i.bytes == t).map fun i =>
        { num := p.num, idx := some i.idx, bytes := i.bytes, ok := true }
    else none

/-- The state with a packet of a queue changed. -/
def State.mapPkt (s : State) (n num : Nat) (f : Pkt → Pkt) : State :=
  { s with queues := mapAt s.queues n fun q => { q with pkts := q.pkts.map fun p => if p.num = num then f p else p } }

/-- A packet inside another that has started. -/
def Inner.start (i : Inner) (launch eng : Option Nat) (done : Bool) : Inner :=
  { i with started := true, complete := i.complete || done, launch := launch <|> i.launch, eng := eng <|> i.eng }

/-- A packet that has started. -/
def Pkt.start (p : Pkt) (launch eng : Option Nat) (done : Bool) : Pkt :=
  { p with started := true, complete := p.complete || done, launch := launch <|> p.launch, eng := eng <|> p.eng }

/-- Whether a packet of an indirect buffer has the chunks fetched beyond it discarded (R372). -/
def pktBarrier (b : List Byte) : Bool := pktOrder b || (4 ≤ pktType b && pktType b ≤ 6)

/-- What stays fetched of an indirect buffer as its packet j starts (R372). -/
def Pkt.keepChunks (p : Pkt) (j : Nat) (b : List Byte) : Pkt :=
  if pktType p.bytes = 7 ∧ pktBarrier b then { p with inner := p.inner.take (4 * (j / 4 + 1)) } else p

/-- The state in which a packet has started, with the launch or engine operation that it runs; `done` where it has completed. -/
def State.started (s : State) (n : Nat) (u : PktAt) (launch eng : Option Nat) (done : Bool) : State :=
  s.mapPkt n u.num fun p =>
    match u.idx with
    | none => p.start launch eng done
    | some j =>
      let p := p.keepChunks j u.bytes
      { p with inner := p.inner.map fun i => if i.idx = j then i.start launch eng done else i }

/-- Whether packets of a queue that have started run on: also where it is stopped (R375). -/
def Queue.runsOn (q : Queue) : Bool := q.flush.isNone && !q.dying

/-- A queue that starts packets now. -/
def Queue.serves (q : Queue) : Bool := !q.stopped && q.flush.isNone && !q.dying

/-- A row that starts a packet of a type: the next one of the queue, where its turn has come; an invalid packet stops the queue
with code 1, and an INDIRECT or GRAPH in a buffer with code 6, whatever its other bytes hold (R361, R372; DEDUCED, log entry 67). -/
def packetRow (s : State) (n t : Nat) (run : State → Queue → PktAt → Served) : Out :=
  match get s.queues n with
  | none => .next s
  | some q =>
    if !q.serves then .next s
    else
      match q.next with
      | none => .next s
      | some u =>
        if !u.ok then .next s
        else if u.idx.isSome && (pktType u.bytes == 7 || pktType u.bytes == 8) then .next (s.stopQueue n u.num 0 6)
        else if !s.pktOk q.part false u.bytes then .next (s.stopQueue n u.num 0 1)
        else if pktType u.bytes ≠ t then .next s
        else .next ((run s q u).getD s)

/-! ### Releases by a queue (R261, R362, R364) -/

/-- The stamps of what a queue and its launches of packets up to one have written. -/
def State.queueStamps (s : State) (q : Queue) (n num : Nat) : List Nat :=
  s.launches.foldl (fun a e => if e.2.queue = n ∧ e.2.pkt ≤ num then joinClocks a e.2.stamped else a) q.stamped

/-- Whether a release at a scope may be made (R265). -/
def State.mayRelease (s : State) (q : Queue) (n num scope : Nat) : Bool :=
  decide (scope < 4) || s.applied (s.queueStamps q n num)

/-- The state in which a queue has noted what its own write sent; `t` is the state before. -/
def State.noteWrite (s t : State) (n : Nat) : State :=
  { s with queues := mapAt s.queues n fun q => { q with stamped := restamp t s q.die q.stamped } }

end Sys2Proof.Machine
end

