-- ==== Sys2Proof/Machine/Launches.lean ====
section
/-! DEFINITION. Launches: reading a kernel header with its tables (R64 to R67, R88), publishing the image (R366), starting
(R365, R371), placing workgroups (R20, R21, R87, R210, R211, R367, R368, R393) and completing (R369). -/

namespace Sys2Proof.Machine

open Sys2Proof

/-! ### The kernel image (R64 to R67) -/

/-- A signed 32-bit field of a header. -/
def headerInt (b : List Byte) (off : Nat) : Int := signed 32 (numAt b off 4)

/-- The modes of macros 0 to 3 (Table 15). -/
def headerModes (b : List Byte) : List Nat := (List.range 4).map fun i => bitsOf 2 (2 * i) (numAt b 0x0A 1)

/-- Bytes of the macros that a header marks SCRATCH. -/
def scratchOf (modes : List Nat) : Nat :=
  ((indexed modes).filter fun e => e.2 == 1).foldl (fun a e => a + macroBytes e.1) 0

/-- Whether the 64 bytes of a header are acceptable (R64, R67). -/
def kernelOk (b : List Byte) : Bool :=
  numAt b 0 4 == 0x31484B56 && numAt b 4 2 == 1 && numAt b 6 1 ≤ 2 && 1 ≤ numAt b 7 1 && numAt b 7 1 ≤ 16 &&
    numAt b 8 1 ≤ 32 && numAt b 9 1 ≤ 32 && (headerModes b).all (fun m => m != 3) && numAt b 0x0B 1 == 0 &&
    numAt b 0x0C 4 % 128 == 0 && numAt b 0x0C 4 ≤ scratchOf (headerModes b) && numAt b 0x10 4 % 4 == 0 &&
    numAt b 0x14 4 % 8 == 0 && numAt b 0x18 2 ≤ 4096 && numAt b 0x1A 2 ≤ 256 && numAt b 0x1C 4 % 4 == 0 &&
    numAt b 0x24 4 / 32 == 0 && bitsOf 3 2 (numAt b 0x24 4) != 7 && numAt b 0x2C 20 == 0

/-- The task table: entry offsets and energy estimates (R65). -/
def taskTable (b : List Byte) (n : Nat) : List (Int × Nat) :=
  (List.range n).map fun i => (headerInt b (8 * i), numAt b (8 * i + 4) 4)

/-- The group image: masks, and whether an entry stands for every slot of the launch (R66). -/
def groupImage (b : List Byte) (n : Nat) : List (BitVec 16 × Bool) :=
  (List.range n).map fun i => (BitVec.ofNat 16 (numAt b (4 * i) 4), flag 16 (numAt b (4 * i) 4))

/-- Whether the words of a group image are acceptable (R66, R67). -/
def groupsOk (b : List Byte) (n warps : Nat) : Bool :=
  (List.range n).all fun i =>
    let e := numAt b (4 * i) 4
    e / 2 ^ 17 == 0 && (if flag 16 e then e % 65536 == 0 else e % 65536 < 2 ^ warps)

/-- Whether no warp is a member of more than four entries (R88). -/
def membersOk (groups : List (BitVec 16 × Bool)) (warps : Nat) : Bool :=
  (List.range warps).all fun i => (groups.filter fun g => g.2 || g.1.getLsbD i).length ≤ 4

/-- The header of an acceptable image (R67, R88). -/
def parseKernel (b tasks groups : List Byte) : Option Header :=
  let warps := numAt b 7 1
  let nt := numAt b 0x18 2
  let ng := numAt b 0x1A 2
  let gs := groupImage groups ng
  let flags := numAt b 0x24 4
  if !kernelOk b || !(List.range nt).all (fun i => numAt tasks (8 * i) 4 % 4 == 0) || !groupsOk groups ng warps ||
      !membersOk gs warps then none
  else some {
    width := 16 * 2 ^ numAt b 6 1, wgWarps := warps, nv := numAt b 8 1, ns := numAt b 9 1, modes := headerModes b,
    scratch := numAt b 0x0C 4, trapOff := headerInt b 0x10, tasks := taskTable tasks nt, groups := gs,
    energy := numAt b 0x20 4, fpcrm := bitsOf 3 2 flags, nosteal := flag 0 flags, noxsteal := flag 1 flags,
    textBytes := numAt b 0x28 4 }

/-- An address at a signed offset from a header. -/
def headerAt (kernel : Nat) (off : Int) : Nat := (BitVec.ofInt 57 (kernel + off)).toNat

/-- The ranges of a kernel image: header and code, task table, and group image (R366). -/
def imageRanges (kernel : Nat) (b : List Byte) : List (Nat × Nat) :=
  [(kernel, 64 + numAt b 0x28 4), (headerAt kernel (headerInt b 0x14), 8 * numAt b 0x18 2),
   (headerAt kernel (headerInt b 0x1C), 4 * numAt b 0x1A 2)].filter fun e => e.2 != 0

/-- The runs of lines of the ranges that a launch publishes, or the first cause (R366). -/
def State.imageLines (s : State) (w : Who) : List (Nat × Nat) → Except Trap (List (Nat × Nat))
  | [] => .ok []
  | (a, n) :: r =>
    match pagesUnder (s.codePage w []) a .range (pageRuns a n) with
    | .error t => .error t
    | .ok pages =>
      match s.imageLines w r with
      | .error t => .error t
      | .ok l => .ok (lineRuns pages ++ l)

/-- The state in which lines are published at .pkg by a die's firmware (R366, R282). -/
def State.publishAll (s : State) (w : Who) (runs : List (Nat × Nat)) : State :=
  let lines := runs.flatMap fun r => (List.range r.2).map (r.1 + ·)
  (lines.foldl (fun t l => t.publish w l 4 (512 + 4 * w.die)) s).dropCode 4 (512 + 4 * w.die) runs

/-- What a LAUNCH has read: refused (code 2), or a header. -/
abbrev Image := Option (List Byte × Header)

/-- The image of a kernel as the command processor reads it once (R67). -/
def State.readImage (s : State) (w : Who) (kernel : Nat) : Sync Image :=
  (s.cpRead w kernel 64).bind fun s b =>
    if !kernelOk b then .done s none
    else
      (s.cpRead w (headerAt kernel (headerInt b 0x14)) (8 * numAt b 0x18 2)).bind fun s tasks =>
        (s.cpRead w (headerAt kernel (headerInt b 0x1C)) (4 * numAt b 0x1A 2)).bind fun s groups =>
          .done s ((parseKernel b tasks groups).map fun h => (b, h))

/-! ### Starting (R365, R371) -/

/-- The launches that a LAUNCH names as predecessors, the most recent first; none for one that the queue has not, or that never started
(R371; DEDUCED, log entry 64). -/
def Queue.preds (q : Queue) (b : List Byte) : List (Option Nat) :=
  ((List.range 4).filter fun i => flag i (pktPred b)).map fun i => (q.launches[i]?).join

/-- Whether a named predecessor makes the packet invalid: it is none, or has failed or been cancelled (R371). One that is failing does
not: its queue stops for it (R376). -/
def State.badPred (s : State) (p : Option Nat) : Bool :=
  !p.any s.failing && match p.bind s.launch with
  | some e => e.st == .failed || e.st == .cancelled
  | none => true

/-- The new launch of a LAUNCH packet. -/
def launchOf (q : Queue) (n : Nat) (u : PktAt) (h : Header) (k1 : Nat) (due : List Nat) : Launch :=
  let b := u.bytes
  { queue := n, pkt := u.num, node := u.idx, part := q.part, root := q.root, pool := q.pool, poolSize := q.poolSize, kernel := pktVa b 8, header := h,
    nx := launchExtent b 0, ny := launchExtent b 1, nz := launchExtent b 2, tslots := numAt b 28 1,
    args := BitVec.ofNat 64 (numAt b 32 8), k1 := BitVec.ofNat 64 k1, ident := BitVec.ofNat 64 (numAt b 40 8), placed := 0,
    last := none, exited := 0, st := .running, cause := 0, record := [], errAt := none, stamped := List.replicate 8 0,
    due := due }

/-- The state in which a launch has started: it takes the next serial number. -/
def State.addLaunch (s : State) (n : Nat) (u : PktAt) (e : Launch) : State :=
  let id := s.serial
  let add (q : Queue) : Queue := if u.idx.isSome && q.pkts.any (fun p => p.num == u.num && pktType p.bytes == 8) then q
                                 else { q with launches := some id :: q.launches }
  let s := { s.fresh with launches := put s.launches id e, queues := mapAt s.queues n add }
  s.started n u (some id) none false

/-- A LAUNCH served: its image is read, judged and published, and its placement begins (R365 to R367); `due` is what its start
acquires. -/
def State.startLaunch (s : State) (q : Queue) (n : Nat) (u : PktAt) (k1 : Nat) (due : List Nat) : Served :=
  let w := s.queueWho q
  (s.readImage w (pktVa u.bytes 8)).served n u.num fun s r =>
    match r with
    | none => some (s.stopQueue n u.num 0 2)
    | some (b, h) =>
      if pktPub u.bytes then
        match s.imageLines w (imageRanges (pktVa u.bytes 8) b) with
        | .error t => some (s.stopQueue n u.num t.cause 3)
        | .ok lines => some ((s.publishAll w lines).addLaunch n u (launchOf q n u h k1 due))
      else some (s.addLaunch n u (launchOf q n u h k1 due))

/-- Whether a queue's partition starts launches and places workgroups now (R384, R395). -/
def State.places (s : State) (p : Nat) : Bool := (s.part p).en && !(s.part p).quiesce && !s.merges p

/-- Whether a warp counts as triggered, with its writes before TRIG or exit performed (R92, R371). -/
def Warp.triggered (x : Warp) : Bool :=
  match x.trig with
  | some due => !x.owes due
  | none => x.status == .ended && x.dueWrites.isEmpty

/-- The warps of a launch's placed workgroups, on their slots or parked. -/
def State.rootWarps (s : State) (l : Nat) : List Warp :=
  (s.cores.flatMap fun k => (k.2.slots.filter fun t => t.2.launch == l && t.2.wg.isSome).filterMap (·.2.warp)) ++
    ((s.parked.filter fun e => e.2.launch == l && e.2.wg.isSome).map (·.2.warp))

/-- Whether every workgroup of a launch counts as triggered (R371); exiting counts (R20). -/
def State.allTriggered (s : State) (l : Nat) (e : Launch) : Bool :=
  e.st == .complete || (e.placed == e.nx * e.ny * e.nz && (s.rootWarps l).all Warp.triggered)

/-- The stamps of what the triggers of a launch release. -/
def State.triggerStamps (s : State) (l : Nat) (e : Launch) : List Nat :=
  (s.rootWarps l).foldl (fun a x => joinClocks a x.stamped) e.stamped

/-- A LAUNCH served, where its predecessors let it start: every workgroup of each launch that it names is triggered, and its start
acquires at TSCOPE what the triggers release (R371). -/
def State.serveLaunch (s : State) (q : Queue) (n : Nat) (u : PktAt) (k1 : Nat) : Served :=
  let ps := q.preds u.bytes
  if ps.any s.badPred then some (s.stopQueue n u.num 0 1)
  else if ps.any (fun p => p.any s.failing) || !s.places q.part then none
  else
    let es := ps.filterMap fun p => p.bind fun l => (s.launch l).map fun e => (l, e)
    let stamps := es.foldl (fun a e => joinClocks a (s.triggerStamps e.1 e.2)) (s.die q.die).clock
    if !es.all fun e => s.allTriggered e.1 e.2 then none
    else if decide (4 ≤ pktTscope u.bytes) && !s.applied stamps then none
    else s.startLaunch q n u k1 (if pktTscope u.bytes < 4 then (s.die q.die).clock else stamps)

/-- LAUNCH (R365): one that names no predecessor. -/
def execLaunch (n : Nat) (s : State) : Out :=
  packetRow s n 1 fun s q u => if pktPred u.bytes = 0 then s.serveLaunch q n u 0 else none

/-- LAUNCH_DEP_START (R371): one that names predecessors. -/
def execLaunchDepStart (n : Nat) (s : State) : Out :=
  packetRow s n 1 fun s q u => if pktPred u.bytes = 0 then none else s.serveLaunch q n u 0

/-! ### Where a workgroup fits (R21, R88, R210, R211, R367) -/

/-- Bytes of the register file that a slot of a kernel takes (R21). -/
def Header.slotBytes (h : Header) : Nat := h.width * (16 + h.nv) * 4 + (16 + h.ns) * 8

/-- The slot places that a core's slots occupy (R21). -/
def Core.occupied (k : Core) : List Nat := k.slots.flatMap fun t => (List.range (t.2.width / 16)).map fun i => t.1 + i

/-- Whether a slot is a free slot of a launch that a placement may take: no steal request of it is outstanding (R22, R188). -/
def Core.ownFree (k : Core) (l w : Nat) : Bool :=
  match get k.slots w with
  | some t => t.launch == l && k.mayPop w t
  | none => false

/-- The slot numbers of a width that a placement of a launch may take, ascending: those that no slot occupies, and the launch's own
free slots (R20, R21, R22, R188; DEDUCED, log entry 83). -/
def Core.placeSlots (k : Core) (l w : Nat) : List Nat :=
  let n := w / 16
  let used := k.occupied
  ((List.range (64 / n)).map fun i => i * n).filter fun a =>
    k.ownFree l a || !(List.range n).any fun i => used.contains (a + i)

/-- The slots that a placement of n slots of a launch takes, and those among them that the launch does not hold yet. -/
def Core.newSlots (k : Core) (l w n : Nat) : List Nat := ((k.placeSlots l w).take n).filter fun a => !k.ownFree l a

/-- The register bytes that a core's slots take (R21). -/
def State.regBytes (s : State) (k : Core) : Nat :=
  k.slots.foldl (fun a t => a + ((s.launch t.2.launch).map (·.header.slotBytes)).getD 0) 0

/-- The offset of a byte of a macro in the concatenation of some macros. -/
def offsetIn : List Nat → Nat → Nat → Option Nat
  | [], _, _ => none
  | m :: r, n, place => if n = m then some place else (offsetIn r n place).map (· + macroBytes m)

/-- Whether an allocation holds a byte of SRAM. -/
def Alloc.holds (a : Alloc) (p : Nat) : Bool :=
  match offsetIn a.macros (p / 131072) (p - macroBase (p / 131072)) with
  | some o => decide (a.base ≤ o) && decide (o < a.base + a.len)
  | none => false

/-- The lowest place for an allocation of n bytes in a core's SCRATCH macros (R211). -/
def Core.allocAt (k : Core) (n : Nat) : Option Nat :=
  let cap := k.capacity 1
  let taken (off : Nat) : Bool := match k.place 1 off with
    | some p => k.allocs.any fun a => a.holds p
    | none => true
  ((List.range (cap / 128 + 1)).map fun i => 128 * i).find? fun b =>
    decide (b + n ≤ cap) && (List.range (n / 128)).all fun i => !taken (b + 128 * i)

/-- A core as a first placement of a launch finds it: one without slots takes the launch's modes (R210). -/
def Core.withModes (k : Core) (h : Header) : Core := if k.slots.isEmpty then { k with modeVec := some h.modes, modes := h.modes } else k

/-- The group-table entries that a workgroup of a launch needs on a core (R88). -/
def Core.groupsNeeded (k : Core) (l : Nat) (h : Header) : Nat :=
  ((indexed h.groups).filter fun g => !g.2.2 || !k.groups.any fun e => e.launch == l && e.image == g.1 && e.wg.isNone).length

/-- How many units of a context pool are free (R368; DESIGN CHOICE, log entry 26). -/
def State.poolFree (s : State) (pool size : Nat) : Nat :=
  size - (s.areas.filter fun a => decide ((a + 2 ^ 57 - pool % 2 ^ 57) % 2 ^ 57 < 0x40000 * size)).length

/-- Whether slots of a kernel for a workgroup of a launch fit on a core: modes and scratchpad, group entries, slots and register
bytes (R367). -/
def State.fits (s : State) (c l : Nat) (e : Launch) (slots : Nat) : Bool :=
  let k := (s.core c).withModes e.header
  k.modeVec == some e.header.modes && (k.allocAt e.header.scratch).isSome &&
    decide (k.groups.length + k.groupsNeeded l e.header ≤ 256) && decide (slots ≤ (k.placeSlots l e.header.width).length) &&
    decide (s.regBytes k + (k.newSlots l e.header.width slots).length * e.header.slotBytes ≤ 196608)

/-- Whether a launch's context pool holds the context memory of the slots that a placement on a core takes and the launch does not hold
there yet (R367, R368). -/
def State.poolHolds (s : State) (c l : Nat) (e : Launch) (slots : Nat) : Bool :=
  decide (((s.core c).newSlots l e.header.width slots).length ≤ s.poolFree e.pool e.poolSize)

/-- Whether a core takes a workgroup or a restored context now: it is up, neither withheld, retiring nor hot (R394, R402, R405). -/
def State.accepts (s : State) (c : Nat) : Bool :=
  let k := s.core c
  (s.die (coreDie c)).up && !k.withheld && !k.retire && !k.hot

/-- Whether a partition's budget lets a workgroup be placed (R393), and the power limiter too (R404). -/
def State.affords (s : State) (e : Launch) : Bool :=
  let p := s.part e.part
  !s.limiting && !p.exh && (p.budget == 0xFFFFFFFF || decide (p.used + (e.header.energy + 999) / 1000 ≤ p.budget.toNat))

/-- The cores of a partition in the order in which the dispatcher offers them to a launch (R367). -/
def State.offerOrder (s : State) (e : Launch) : List Nat :=
  let own := (List.range 512).filter fun c => s.partOf c == some e.part
  match e.last with
  | none => own
  | some c => own.filter (fun i => decide (c < i)) ++ own.filter fun i => decide (i ≤ c)

/-- Workgroups of a launch. -/
def Launch.total (e : Launch) : Nat := e.nx * e.ny * e.nz

/-- The core on which the next workgroup of a launch would be placed now (R367). -/
def State.placeAt (s : State) (l : Nat) (e : Launch) : Option Nat :=
  if e.st != .running || e.total ≤ e.placed || !s.places e.part || !s.affords e then none
  else (s.offerOrder e).find? fun c =>
    s.accepts c && s.fits c l e (e.header.wgWarps + e.tslots) && s.poolHolds c l e (e.header.wgWarps + e.tslots)

/-- Whether the dispatcher has come to a launch: every earlier one of its partition is wholly placed or waits (R367). -/
def State.served (s : State) (l : Nat) (e : Launch) : Bool :=
  s.launches.all fun z => decide (l ≤ z.1) || z.2.part != e.part || (s.placeAt z.1 z.2).isNone

/-! ### Placing (R20, R87, R211, R365, R368) -/

/-- A root warp at warp start (R20, R69, R365). -/
def Launch.rootWarp (e : Launch) (l i windex area : Nat) : Warp :=
  let h := e.header
  let x := Warp.start l (some i) windex h.width h.nv h.ns (BitVec.ofNat 57 (e.kernel + 64)) (areaSp area) h.fpc
  { x with k := Cell64.of e.args :: Cell64.of e.k1 :: x.k.drop 2 }

/-- The slots of a workgroup: its warps on the first, and free slots of its launch on the others; each has its context memory. -/
def Launch.slots (e : Launch) (l i : Nat) (places : List (Nat × Nat)) : List (Nat × Slot) :=
  (indexed places).map fun z =>
    let p := (z.1, z.2.1)
    let area := z.2.2
    let root := decide (p.1 < e.header.wgWarps)
    (p.2, { launch := l, width := e.header.width, wg := if root then some i else none, windex := if root then p.1 else 0,
            use := if root then .busy else .free, warp := if root then some (e.rootWarp l i p.1 area) else none, area := area,
            task := none })

/-- A mask of slots. -/
def slotsMask (l : List Nat) : BitVec 64 := l.foldl (fun m w => m ||| slotBit w) 0

/-- A new group-table entry. -/
def Group.start (l : Nat) (wg : Option Nat) (image : Nat) (members : BitVec 64) : Group :=
  { launch := l, wg := wg, image := image, members := members, phase := 0, arrived := 0, due := [], carried := [], results := [],
    absent := [] }

/-- The per-workgroup entries of a workgroup whose warps stand on some slots (R87). -/
def Launch.wgGroups (e : Launch) (l i : Nat) (warps : List Nat) : List Group :=
  ((indexed e.header.groups).filter fun g => !g.2.2).map fun g =>
    Group.start l (some i) g.1 (slotsMask (((indexed warps).filter fun w => g.2.1.getLsbD w.1).map (·.2)))

/-- A core with the per-launch entries of a launch, which every slot of it on the core is a member of (R87). -/
def Core.launchGroups (k : Core) (l : Nat) (e : Launch) : Core :=
  let all := slotsMask ((k.slots.filter fun t => t.2.launch == l).map (·.1))
  let images := ((indexed e.header.groups).filter (·.2.2)).map (·.1)
  let has (j : Nat) : Bool := k.groups.any fun g => g.launch == l && g.image == j && g.wg.isNone
  { k with groups := (k.groups.map fun g => if g.launch = l ∧ g.wg = none then { g with members := all } else g) ++
             (images.filter fun j => !has j).map fun j => Group.start l none j all }

/-- A core with a scratchpad allocation of a workgroup, every byte 0 (R211). -/
def Core.allocate (k : Core) (l i base n : Nat) : Core :=
  if n = 0 then k
  else
    let k := k.viewWrite 1 base (List.replicate n 0)
    { k with allocs := k.allocs ++ [{ wg := i, launch := l, macros := k.macros 1, base := base, len := n }] }

/-- A core on which a workgroup of a launch has been placed at a time. -/
def Core.placeGroup (k : Core) (l : Nat) (e : Launch) (areas : List Nat) (now : Nat) : Core :=
  let h := e.header
  let i := e.placed
  let k := k.withModes h
  let places := (k.placeSlots l h.width).take (h.wgWarps + e.tslots)
  let new := k.newSlots l h.width (h.wgWarps + e.tslots)
  let area (w : Nat) : Nat := match get k.slots w with
    | some t => t.area
    | none => areas.getD (new.idxOf w) 0
  let k := k.allocate l i ((k.allocAt h.scratch).getD 0) h.scratch
  let wg : Workgroup := { launch := l, index := i, placed := now, rings := false, xpubs := [] }
  let k := { k with slots := (e.slots l i (places.map fun w => (w, area w))).foldl (fun t (z : Nat × Slot) => put t z.1 z.2) k.slots,
                    steals := k.steals.filter fun z => !places.contains z.slot, wgs := k.wgs ++ [wg],
                    groups := k.groups ++ e.wgGroups l i (places.take h.wgWarps) }
  k.launchGroups l e

/-- WORKGROUP_PLACE (R367): the next workgroup of a launch is placed on the first core that qualifies, once that core's die has
applied what the launch's start acquired (DEDUCED, log entry 69). -/
def execWorkgroupPlace (l : Nat) (s : State) : Out :=
  match s.launch l with
  | none => .next s
  | some e =>
    match s.placeAt l e with
    | none => .next s
    | some c =>
      if !s.served l e || !covers (s.die (coreDie c)).clock e.due then .next s
      else
        let k := (s.core c).withModes e.header
        let areas := s.newAreas e.pool (k.newSlots l e.header.width (e.header.wgWarps + e.tslots)).length
        let s := s.setCore c ((s.core c).placeGroup l e areas (s.timeOf (coreDie c)))
        .next { s with launches := put s.launches l { e with placed := e.placed + 1, last := some c } }

/-! ### Completing (R369) -/

/-- A packet whose launch has completed. -/
def Pkt.launchDone (p : Pkt) (l : Nat) : Pkt :=
  { p with complete := p.complete || p.launch == some l,
           inner := p.inner.map fun i => if i.launch = some l then { i with complete := true } else i }

/-- LAUNCH_COMPLETE (R369). -/
def execLaunchComplete (l : Nat) (s : State) : Out :=
  match s.launch l with
  | none => .next s
  | some e =>
    if e.st != .running || e.placed != e.total || e.exited != e.total || !s.launchGone l then .next s
    else
      .next { s with launches := put s.launches l { e with st := .complete },
                     queues := mapAt s.queues e.queue fun q => { q with pkts := q.pkts.map fun p => p.launchDone l } }

end Sys2Proof.Machine
end

