-- ==== Sys2Proof/Machine/Queues.lean ====
section
/-! DEFINITION. Command queues (R359, R360, R375, R381): doorbells, fetching, skipping and flushing, the packet types other than
LAUNCH (R362, R372 to R374), and completion (R364). -/

namespace Sys2Proof.Machine

open Sys2Proof

/-! ### A queue (R359, R381) -/

/-- A new queue. -/
def Queue.new (d p vf i root pool units ring size : Nat) : Queue :=
  { die := d, part := p, vf := vf, slot := i, root := root, pool := pool, poolSize := units, ring := bitsOf 45 12 ring * 4096, size := size, rptr := 0,
    done := 0, stopped := false, status := 0, pkts := [], launches := [], notice := none, flush := none, dying := false,
    stamped := List.replicate 8 0 }

/-! ### Fetching (R360) -/

/-- An 8-byte word of a queue's page slot, as the command processor that serves it reads the page (R360, R386). -/
def State.pageWord (s : State) (q : Queue) (off : Nat) : Sync Nat :=
  let a := s.pageSlot q + off
  if !s.populated a then .cause s (Trap.of 0x103 15)
  else
    match s.load (s.pageWho q) 2 false a 8 none with
    | none => .wait
    | some (t, _, some z) => .cause t (Trap.of z.toNat 15)
    | some (t, b, none) => .done t (ofBytes b)

/-- The nodes of the graph version that a RUN packet captures as it is fetched (R374). -/
def State.captured (s : State) (q : Queue) (b : List Byte) : List (List Byte) :=
  if pktType b = 8 then (get s.graphs (q.part, numAt b 9 1)).getD [] else []

/-- A fetched packet. -/
def Pkt.fetched (num : Nat) (b : List Byte) (version : List (List Byte)) : Pkt :=
  { num := num, bytes := b, started := false, complete := false, discarded := false, launch := none, eng := none,
    version := version, params := 0, inner := [], halted := none, mute := false }

/-- A queue that has fetched a packet. -/
def Queue.take (q : Queue) (p : Pkt) : Queue := { q with rptr := q.rptr + 1, pkts := q.pkts ++ [p] }

/-- The state after a queue has fetched packets, RPTR moving as each is fetched; fuel is their number. -/
def State.fetchPackets (n : Nat) : Nat → State → State
  | 0, s => s
  | k + 1, s =>
    match get s.queues n with
    | none => s
    | some q =>
      match s.cpRead (s.queueWho q) ((q.ring + 64 * (q.rptr % 2 ^ q.size)) % 2 ^ 57) 64 with
      | .wait => s
      | .cause t z => t.stopQueue n q.rptr z.cause 3
      | .done t b =>
        State.fetchPackets n k (({ t with queues := put t.queues n (q.take (Pkt.fetched q.rptr b (s.captured q b))) }).showQueue n)

/-- The state after a running queue has fetched up to a WPTR; one more than the ring's length ahead of DONE stops it
(R360; DEDUCED, log entry 65). -/
def State.fetchUpTo (s : State) (n w : Nat) : State :=
  match get s.queues n with
  | none => s
  | some q =>
    if !q.serves || (s.part q.part).quiesce then s
    else if 2 ^ q.size < (w + 2 ^ 64 - q.done) % 2 ^ 64 then s.stopQueue n q.rptr 0 1
    else State.fetchPackets n (w - q.rptr) s

/-! ### Doorbells (R360, R388, R390, R399) -/

/-- The ports of a die whose link is up. -/
def State.portsUp (s : State) (d : Nat) : List Nat :=
  if (s.die d).up then (List.range 4).filter fun i => ((s.die d).ports.getD i (false, 0)).1 else []

/-- Whether a virtual function is bound to a partition that is enabled (R390). -/
def State.bound (s : State) (vf : Nat) : Bool :=
  let e := ((get s.vfmap vf).getD 0).toNat
  flag 63 e && (s.part (bitsOf 5 0 e)).en

/-- What becomes of a doorbell for a virtual function at a die: with no port up it is dropped (R399); the port, one of those that are up,
refuses one whose function is not bound, and the command processor complex one whose port its table does not admit, and each notes
that (R386, R388, R390; DEDUCED, log entry 61). The state after it, and whether it has reached the command processor. -/
def State.doorbell (s : State) (vf d : Nat) : State × Bool :=
  match pick (16 * s.free) (s.portsUp d) with
  | none => (s, false)
  | some i =>
    let mid := d * 256 + 0xB0 + i
    if !s.bound vf then (s.refuse d (18 + i) mid 2 0, false)
    else if !s.admits d 17 mid 2 0 then (s.refuse d 17 mid 2 0, false)
    else (s, true)

/-- What a NOTIFY found in CTL that is to be acted on (R375): a flush, or a skip; with both, the
flush (DEDUCED, log entry 64). -/
def noticeOf (ctl w : Nat) : Option (Bool × Nat) :=
  if flag 1 ctl then some (true, w) else if flag 0 ctl then some (false, w) else none

/-- The state in which CTL of a queue is clear. -/
def State.clearCtl (s : State) (q : Queue) : State := s.postPage (s.pageWho q) (s.pageSlot q + 0x28) (List.replicate 8 0)

/-- The state after a queue has acted on a doorbell: it has read WPTR and CTL, and fetched, where CTL asks nothing. -/
def State.notified (s : State) (n : Nat) (q : Queue) : State :=
  (((s.pageWord q 0x08).bind fun t w => (t.pageWord q 0x28).bind fun t ctl => .done t (w, ctl)).served n q.rptr fun t z =>
    match noticeOf z.2 z.1 with
    | some e => some { t with queues := put t.queues n { q with notice := some e } }
    | none => some (t.fetchUpTo n z.1)).getD s

/-- The page slot of a virtual function that holds no queue, as firmware addresses it to say so (R360). -/
def State.emptySlot (s : State) (vf i : Nat) : Queue :=
  let p := bitsOf 5 0 ((get s.vfmap vf).getD 0).toNat
  Queue.new (s.proxyMid p / 256) p vf i 0 0 0 0 4

/-- The state after a NOTIFY has named a slot that holds no queue: its STATUS says that it is stopped with code 1; slot 63 has no place in
the page (R360; DEDUCED, log entry 61). -/
def State.noSlot (s : State) (vf i : Nat) : State :=
  let q := s.emptySlot vf i
  if i = 63 then s else s.postPage (s.pageWho q) (s.pageSlot q + 0x20) (toBytes 8 (statusWord 0 0 true 1).toNat)

/-- NOTIFY (R360): a write to the page of a virtual function, naming a slot. -/
def execNotify (vf : Nat) (v : DWord) (s : State) : Out :=
  let i := bitsOf 6 0 v.toNat
  match s.queues.find? fun e => e.2.vf == vf && e.2.slot == i with
  | none =>
    let r := s.doorbell vf (s.emptySlot vf i).die
    .next (if r.2 then r.1.noSlot vf i else r.1)
  | some (n, q) =>
    let r := s.doorbell vf q.die
    .next (if r.2 then r.1.notified n q else r.1)

/-- WPTR_POLL (R360). -/
def execWptrPoll (n : Nat) (s : State) : Out :=
  match get s.queues n with
  | none => .next s
  | some q => .next (((s.pageWord q 0x08).served n q.rptr fun t w => some (t.fetchUpTo n w)).getD s)

/-! ### SKIP and FLUSH (R375) -/

/-- The LAUNCHes of a queue after packets of it have been discarded: one that never started stands for none (R371; DEDUCED, log entry
64). -/
def Queue.drops (q : Queue) (l : List Pkt) : List (Option Nat) :=
  ((l.filter fun p => pktType p.bytes == 1 && !p.started).map fun _ => none) ++ q.launches

/-- A queue without the packet that its STATUS names: a packet that was not fetched is passed over (R375; DEDUCED, log entry 64). -/
def Queue.discard (q : Queue) : Queue :=
  let i := bitsOf 32 32 q.status.toNat
  let hit (p : Pkt) : Bool := p.num % 2 ^ 32 == i
  let out (p : Pkt) : Pkt := if hit p then { p with discarded := true } else p
  if q.pkts.any hit then { q with pkts := q.pkts.map out, launches := q.drops (q.pkts.filter hit) }
  else if q.rptr % 2 ^ 32 = i then q.take { Pkt.fetched q.rptr (List.replicate 64 0) [] with discarded := true }
  else q

/-- A stopped queue without the packet that stopped it: it runs again, unless another packet in hand stops it (R375; DEDUCED, log entry
64). -/
def Queue.skip (q : Queue) : Queue :=
  if !q.stopped then q
  else
    let r := q.discard
    match r.pkts.findSome? fun p => if p.discarded then none else p.halted.map fun h => (p.num, h) with
    | some (num, h) => { r with status := statusWord num h.1 true h.2 }
    | none => { r with stopped := false, status := 0 }

/-- SKIP (R375): the failing packet of a stopped queue is discarded, and the queue runs again and fetches. -/
def execSkip (n : Nat) (s : State) : Out :=
  match get s.queues n with
  | none => .next s
  | some q =>
    match q.notice with
    | some (false, w) =>
      let s := { s with queues := put s.queues n { q.skip with notice := none } }
      .next (((s.clearCtl q).showQueue n).fetchUpTo n w)
    | _ => .next s

/-- The engine operations that a packet runs. -/
def Pkt.engines (p : Pkt) : List Nat := p.eng.toList ++ p.inner.filterMap (·.eng)

/-- The state in which a queue has begun to flush up to a WPTR: every packet that has not completed, and the one that stopped the
queue, is discarded, and its launches are cancelled (R370, R375). -/
def State.startFlush (s : State) (n : Nat) (q : Queue) (w : Nat) : State :=
  let out (p : Pkt) : Bool := decide (p.num < w) &&
    (!p.finished || (q.stopped && p.num % 2 ^ 32 == bitsOf 32 32 q.status.toNat))
  let hit := q.pkts.filter out
  let first := ((hit.head?).map (·.num)).getD (min q.rptr w)
  let s := (hit.flatMap Pkt.launches).foldl (fun s l => s.endLaunch l .cancelled 0 [] none) s
  let mark (p : Pkt) : Pkt := if out p then { p with discarded := true } else p
  { s with queues := mapAt s.queues n fun q => { q with notice := none, flush := some (w, first), launches := q.drops hit, pkts := q.pkts.map mark } }

/-- FLUSH (R375). -/
def execFlush (n : Nat) (s : State) : Out :=
  match get s.queues n with
  | none => .next s
  | some q =>
    match q.notice with
    | some (true, w) => .next ((s.clearCtl q).startFlush n q w)
    | _ => .next s

/-- FLUSH_DONE (R375): once every packet is counted, the queue is empty and runs; one that is being destroyed goes (R381). -/
def execFlushDone (n : Nat) (s : State) : Out :=
  match get s.queues n with
  | none => .next s
  | some q =>
    match q.flush with
    | some (w, first) =>
      if !q.pkts.isEmpty then .next s
      else if q.dying then .next { s with queues := del s.queues n }
      else
        let q := { q with flush := none, rptr := w, done := w, stopped := false, status := statusWord first 0 false 8 }
        .next (({ s with queues := put s.queues n q }).showQueue n)
    | none => .next s

/-! ### NOP, COPY, COLL, WAITV, SIGNAL and ANDBAR (R362) -/

/-- PKT_NOP (R362). -/
def execPktNop (n : Nat) (s : State) : Out := packetRow s n 0 fun s _ u => some (s.started n u none none true)

/-- A new engine operation of a packet. -/
def State.packetEng (s : State) (q : Queue) (n : Nat) (u : PktAt) (op queue : Nat) (ctl : DWord)
    (members : List (Nat × Nat)) : EngOp :=
  EngOp.new s.serial op queue 0 q.part q.die q.root none none (some (n, u.num)) (pktVa u.bytes 8) (pktVa u.bytes 16) ctl 0 members

/-- A COPY served: its operation moves bytes in class 3, in no engine queue (DEDUCED, log entry 68). -/
def State.serveCopy (s : State) (q : Queue) (n : Nat) (u : PktAt) : Served :=
  let ctl : DWord := BitVec.ofNat 64 (3 * 2 ^ 58 + numAt u.bytes 24 8)
  if !copyOk false (pktVa u.bytes 8) (pktVa u.bytes 16) ctl.toNat 0 then some (s.stopQueue n u.num 0x281 5)
  else
    let o := s.packetEng q n u 0x50 noQueue ctl []
    some ((s.fresh.setEng { o with st := .queued }).started n u none (some o.id) false)

/-- COPY (R362). -/
def execCopy (n : Nat) (s : State) : Out := packetRow s n 2 fun s q u => s.serveCopy q n u

/-- A COLL served: a command that the engine would reject stops the queue with code 5. -/
def State.serveColl (s : State) (q : Queue) (n : Nat) (u : PktAt) : Served :=
  let ctl : DWord := BitVec.ofNat 64 (numAt u.bytes 24 8)
  match s.collCause q.die q.part (pktVa u.bytes 8) (pktVa u.bytes 16) ctl.toNat with
  | .error e => some (s.stopQueue n u.num e.1 5)
  | .ok l =>
    let o := s.packetEng q n u 0x52 (collQueue q.die q.part (bitsOf 1 56 ctl.toNat)) ctl l
    some ((s.fresh.setEng o).started n u none (some o.id) false)

/-- PKT_COLL (R362). -/
def execPktColl (n : Nat) (s : State) : Out := packetRow s n 3 fun s q u => s.serveColl q n u

/-- A WAITV served: it has started, and completes where its test holds, an acquire at .sys (R269). -/
def State.serveWaitv (s : State) (q : Queue) (n : Nat) (u : PktAt) : Served :=
  let w := s.queueWho q
  match s.access w [] .read true (pktVa u.bytes 8) 8 with
  | .error e => some (s.stopQueue n u.num e.1 3)
  | .ok l =>
    match s.load w 2 l.hs l.pa 8 (keyOf l.pa l.key) with
    | none => none
    | some (t, _, some z) => some (t.stopQueue n u.num z.toNat 3)
    | some (t, b, none) =>
      let v (off : Nat) : DWord := BitVec.ofNat 64 (numAt u.bytes off 8)
      some (t.started n u none none (waitvTest (numAt u.bytes 32 1 == 1) (BitVec.ofNat 64 (ofBytes b)) (v 16) (v 24)))

/-- A row of a packet that waits: the one of its type that has started goes on, also in a stopped queue (R375), else the next one
starts. -/
def waitRow (s : State) (n t : Nat) (run : State → Queue → PktAt → Served) : Out :=
  match (get s.queues n).bind fun q => (q.waiting t).map fun u => (q, u) with
  | some (q, u) => .next (if q.runsOn then (run s q u).getD s else s)
  | none => packetRow s n t run

/-- PKT_WAITV (R362). -/
def execPktWaitv (n : Nat) (s : State) : Out := waitRow s n 4 fun s q u => s.serveWaitv q n u

/-- A SIGNAL served: a store, or a 64-bit add at the home slice, that is a release (R362). -/
def State.serveSignal (s : State) (q : Queue) (n : Nat) (u : PktAt) : Served :=
  let w := s.queueWho q
  let add := numAt u.bytes 24 1 == 1
  let v := numAt u.bytes 16 8
  if !s.mayRelease q n u.num (if pktCompl u.bytes then pktScope u.bytes else 5) then none
  else
    match s.access w [] (if add then .atomic else .write) add (pktVa u.bytes 8) 8 with
    | .error e => some (s.stopQueue n u.num e.1 3)
    | .ok l =>
      let r := if add then s.pass w l.type 1 l.pa true else s.passStore w l.type l.pa
      match r.2 with
      | some z => some (r.1.stopQueue n u.num z.toNat 3)
      | none =>
        if add then
          match s.rmw w l.type l.hs l.pa 8 (keyOf l.pa l.key) fun x => (x + v) % 2 ^ 64 with
          | none => none
          | some (t, _, some z) => some (t.stopQueue n u.num z.toNat 3)
          | some (t, _, none) => some ((t.noteWrite s n).started n u none none true)
        else
          match s.store w l.type l.hs l.pa (indexed (toBytes 8 v)) (keyOf l.pa l.key) with
          | none => none
          | some t => some ((t.noteWrite s n).started n u none none true)

/-- SIGNAL (R362). -/
def execSignal (n : Nat) (s : State) : Out := packetRow s n 5 fun s q u => s.serveSignal q n u

/-- Whether a queue's DONE has reached a threshold, as a command processor of a die reads it from the page. -/
def State.doneReached (s : State) (d : Nat) (e : Nat × Nat) : Bool :=
  match get s.queues e.1 with
  | some q => decide (e.2 ≤ q.done) && s.readyFor d ((s.pageSlot q + 0x18) / 128)
  | none => false

/-- ANDBAR (R362). -/
def execAndbar (n : Nat) (s : State) : Out :=
  waitRow s n 6 fun s q u => some (s.started n u none none ((andEntries u.bytes).all (s.doneReached q.die)))

/-! ### INDIRECT (R372) -/

/-- The indirect buffer that a queue runs. -/
def Queue.indirect (q : Queue) : Option Pkt :=
  q.pkts.find? fun p => p.started && !p.finished && pktType p.bytes == 7

/-- Whether a buffer's next chunk may be fetched now: up to four chunks ahead of the packet being started. -/
def Pkt.mayFetch (p : Pkt) : Bool :=
  let next := ((p.inner.find? fun i => !i.started).map (·.idx)).getD p.inner.length
  decide (p.inner.length < p.count) && decide (p.inner.length / 4 ≤ next / 4 + 4) &&
    !p.inner.any fun i => i.started && !i.complete && pktBarrier i.bytes

/-- The packets of a fetched chunk (DEDUCED, log entry 67). -/
def chunkOf (start : Nat) (b : List Byte) : List Inner :=
  (List.range (b.length / 64)).map fun i =>
    { idx := start + i, bytes := (b.drop (64 * i)).take 64, started := false, complete := false, reported := false,
      launch := none, eng := none }

/-- The state after a queue has fetched the next chunk of its indirect buffer; a quiesced partition's queues fetch nothing (R384). -/
def State.fetchChunk (s : State) (n : Nat) (q : Queue) (p : Pkt) : State :=
  if !p.mayFetch || (s.part q.part).quiesce then s
  else
    let i := p.inner.length
    ((s.cpRead (s.queueWho q) ((pktVa p.bytes 8 + 64 * i) % 2 ^ 57) (64 * min 4 (p.count - i))).served n p.num fun t b =>
      some (t.mapPkt n p.num fun p => { p with inner := p.inner ++ chunkOf i b })).getD s

/-- INDIRECT (R372): it starts, or a started one fetches the next chunk of its buffer. -/
def execIndirect (n : Nat) (s : State) : Out :=
  match (get s.queues n).bind fun q => q.indirect.map fun p => (q, p) with
  | some (q, p) => .next (if q.serves then s.fetchChunk n q p else s)
  | none => packetRow s n 7 fun s _ u => some (s.started n u none none false)

/-! ### GRAPH (R373, R374) -/

/-- The predecessors of a node. -/
def nodePreds (b : List Byte) : List Nat := ((List.range 4).map fun i => numAt b (48 + 2 * i) 2).filter fun p => p != 0xFFFF

/-- Whether a node packet is well formed at its place (R373). -/
def State.nodeOk (s : State) (part i : Nat) (b : List Byte) : Bool :=
  1 ≤ pktType b && pktType b ≤ 5 && s.pktOk part true b && (nodePreds b).all fun p => decide (p < i)

/-- The nodes of a descriptor's bytes. -/
def nodesOf (b : List Byte) (n : Nat) : List (List Byte) := (List.range n).map fun i => (b.drop (64 * i)).take 64

/-- GRAPH_DEFINE (R373): the descriptor is copied as the instance's new version; a malformed one stops the queue with code 7. -/
def execGraphDefine (n : Nat) (s : State) : Out :=
  packetRow s n 8 fun s q u =>
    if numAt u.bytes 8 1 = 0 then none
    else
      let w := s.queueWho q
      let va := pktVa u.bytes 16
      ((s.cpRead w va 64).served n u.num fun s h =>
        let k := numAt h 0 2
        if k = 0 || 256 < k || numAt h 2 62 != 0 || numAt u.bytes 24 4 != 64 * (k + 1) then some (s.stopQueue n u.num 0 7)
        else
          (s.cpRead w ((va + 64) % 2 ^ 57) (64 * k)).served n u.num fun s b =>
            let nodes := nodesOf b k
            if !(indexed nodes).all fun e => s.nodeOk q.part e.1 e.2 then some (s.stopQueue n u.num 0 7)
            else
              let s := { s with graphs := put s.graphs (q.part, numAt u.bytes 9 1) nodes }
              some (s.started n u none none true))

/-- Where queue n keeps the copy of the parameter block of its packet of a number: each RUN has memory of its own (R374; DESIGN CHOICE, log
entry 26). -/
def Queue.paramsAt (q : Queue) (n num : Nat) : Nat := (q.pool + 2 ^ 40 + 0x1000 * (n + 4096 * (num % 65536))) % 2 ^ 57

/-- A RUN that has started, with its nodes and the place of its parameter copy. -/
def Pkt.run (p : Pkt) (params : Nat) : Pkt :=
  { p with started := true, params := params,
           inner := (indexed p.version).map fun e =>
             { idx := e.1, bytes := e.2, started := false, complete := false, reported := false, launch := none, eng := none } }

/-- GRAPH_RUN (R374): the captured version starts, with a copy of its parameter block. -/
def execGraphRun (n : Nat) (s : State) : Out :=
  packetRow s n 8 fun s q u =>
    if numAt u.bytes 8 1 != 0 then none
    else if (q.pkts.find? fun p => p.num == u.num).all fun p => p.version.isEmpty then some (s.stopQueue n u.num 0 7)
    else
      let w := s.queueWho q
      let k := numAt u.bytes 24 4
      if k = 0 then some (s.mapPkt n u.num fun p => p.run 0)
      else
        (s.cpRead w (pktVa u.bytes 16) k).served n u.num fun t b =>
          (t.cpWrite w (q.paramsAt n u.num) b).served n u.num fun v _ =>
            some ((v.noteWrite s n).mapPkt n u.num fun p => p.run (q.paramsAt n u.num))

/-- The graph that a queue runs. -/
def Queue.graph (q : Queue) : Option Pkt :=
  q.pkts.find? fun p => p.started && !p.finished && pktType p.bytes == 8 && p.holds

/-- Whether every predecessor of a node has completed. -/
def Pkt.nodeReady (p : Pkt) (i : Inner) : Bool := (nodePreds i.bytes).all fun j => p.inner.any fun e => e.idx == j && e.complete

/-- A node served by its type. -/
def State.serveNode (s : State) (q : Queue) (n : Nat) (p : Pkt) (u : PktAt) : Served :=
  let t := pktType u.bytes
  if t = 1 then s.serveLaunch q n u p.params
  else if t = 2 then s.serveCopy q n u
  else if t = 3 then s.serveColl q n u
  else if t = 4 then s.serveWaitv q n u
  else s.serveSignal q n u

/-- Whether a node of a graph run has failed: no further node of it starts (R374). -/
def State.nodeFailed (s : State) (p : Pkt) : Bool := p.halted.isSome || p.launches.any s.ended

/-- GRAPH_NODE_START (R374): a node whose predecessors have completed starts, and a WAITV that has started is tested again; a RUN that has
started runs on in a stopped queue (R375). -/
def execGraphNodeStart (n j : Nat) (s : State) : Out :=
  match (get s.queues n).bind fun q => q.graph.bind fun p => (p.inner.find? fun i => i.idx == j).map fun i => (q, p, i) with
  | none => .next s
  | some (q, p, i) =>
    let again := i.started && !i.complete && pktType i.bytes == 4
    if !q.runsOn || s.nodeFailed p || (i.started && !again) || !p.nodeReady i then .next s
    else .next ((s.serveNode q n p { num := p.num, idx := some j, bytes := i.bytes, ok := true }).getD s)

/-! ### Completion (R364) -/

/-- A completion store served: a release at CSCOPE, of what the queue has done up to this packet. One that meets a cause is not made
again (R406). -/
def State.completionStore (s : State) (q : Queue) (n num : Nat) (b : List Byte) (f : State → State) : Served :=
  if !pktCompl b then some (f s)
  else if !s.mayRelease q n num (pktScope b) then none
  else
    match s.cpWrite (s.queueWho q) (pktVa b 48) (b.drop 56) with
    | .wait => none
    | .cause u t => some ((u.stopQueue n num t.cause 3).mapPkt n num fun p => { p with mute := true })
    | .done t _ => some (f (t.noteWrite s n))

/-- The state in which a queue has counted its first packet in DONE. -/
def State.countDone (s : State) (n : Nat) : State :=
  ({ s with queues := mapAt s.queues n fun q => { q with done := q.done + 1, pkts := q.pkts.drop 1 } }).showQueue n

/-- Whether what a packet runs has ended. -/
def State.packetEnded (s : State) (p : Pkt) : Bool :=
  p.launches.all s.launchGone && p.engines.all fun e => match get s.engOps e with
    | some o => o.st.final
    | none => true

/-- The first packet of a buffer whose completion word has not been seen to, where it has completed. -/
def Pkt.unreported (p : Pkt) : Option Inner :=
  if pktType p.bytes = 7 then (p.inner.find? fun i => !i.reported).bind fun i => if i.complete then some i else none else none

/-- A buffer with the completion word of a packet seen to. -/
def Pkt.report (p : Pkt) (j : Nat) : Pkt :=
  { p with inner := p.inner.map fun i => if i.idx = j then { i with reported := true } else i }

/-- PACKET_COMPLETION (R364, R375): in packet order, a completed packet makes its store and is counted; a discarded one is counted
once what it ran has ended; a packet of a buffer makes its store when its turn comes (R372). One whose store has failed, or that
stops its queue, goes no further (R406). -/
def execPacketCompletion (n : Nat) (s : State) : Out :=
  match (get s.queues n).bind fun q => q.pkts.head?.map fun p => (q, p) with
  | none => .next s
  | some (q, p) =>
    if p.discarded then .next (if s.packetEnded p then s.countDone n else s)
    else if p.mute then .next s
    else
      match p.unreported with
      | some i => .next ((s.completionStore q n p.num i.bytes fun t => t.mapPkt n p.num fun p => p.report i.idx).getD s)
      | none =>
        if !p.finished || p.halted.isSome then .next s
        else .next ((s.completionStore q n p.num p.bytes fun t => t.countDone n).getD s)

/-! ### Creating and destroying (R381) -/

/-- RING (Table 2 of R359). -/
def queueRing (ring size : Nat) : DWord := BitVec.ofNat 64 (bitsOf 45 12 ring * 4096 + size)

/-- QUEUE_CREATE (R359, R381): the queue is bound, and its page slot is zero apart from RING; `pool` is the base and the size of its
context pool (DESIGN CHOICE, log entry 26), and a virtual function is one of 128 (R12). -/
def execQueueCreate (n d p vf i root : Nat) (pool : Nat × Nat) (ring size : Nat) (s : State) : Out :=
  let bad := (get s.queues n).isSome || decide (4096 ≤ n) || decide (8 ≤ d) || decide (32 ≤ p) || decide (128 ≤ vf) || decide (63 ≤ i) ||
    decide (size < 4) || decide (15 < size) || !(s.die d).up || s.queues.any fun e => e.2.vf == vf && e.2.slot == i
  if bad then .next s
  else
    let q := Queue.new d p vf i root pool.1 pool.2 ring size
    let s := { s with queues := put s.queues n q }
    .next (s.postPage (s.pageWho q) (s.pageSlot q) (toBytes 8 (queueRing ring size).toNat ++ List.replicate 56 0))

/-- QUEUE_DESTROY (R381): packets that have started are cancelled as a flush cancels them, and then the slot is free. -/
def execQueueDestroy (n : Nat) (s : State) : Out :=
  match get s.queues n with
  | none => .next s
  | some q =>
    if q.dying then .next s
    else if q.pkts.isEmpty then .next { s with queues := del s.queues n }
    else
      let s := s.startFlush n q q.rptr
      .next { s with queues := mapAt s.queues n fun q => { q with dying := true } }

/-- COMM_SLOT_WRITE (R300, R381): a communicator slot's members; COLL commands already issued keep theirs. -/
def execCommSlotWrite (d p i : Nat) (members : List (Nat × Nat)) (s : State) : Out :=
  if 256 ≤ i ∨ members.length = 1 ∨ 64 < members.length then .next s
  else
    .next { s with comms := if members.isEmpty then del s.comms (d, p, i) else put s.comms (d, p, i) members }

end Sys2Proof.Machine
end

