-- ==== Sys2Proof/Machine/Restore.lean ====
section
/-! DEFINITION. Restoring parked contexts (R352 to R354): a root warp to its own slot, a task to a free slot of its launch, and
moving a workgroup all of whose warps are parked. -/

namespace Sys2Proof.Machine

open Sys2Proof

/-! ### Moving a workgroup (R352) -/

/-- A slot mask under a renumbering of slots. -/
def remapMask (m : BitVec 64) (f : List (Nat × Nat)) : BitVec 64 := slotsMask ((f.filter fun e => m.getLsbD e.1).map (·.2))

/-- A slot under a renumbering. -/
def remapSlot (f : List (Nat × Nat)) (w : Nat) : Nat := (get f w).getD w

/-- A per-workgroup entry under a renumbering of its slots. -/
def Group.remap (g : Group) (f : List (Nat × Nat)) : Group :=
  { g with members := remapMask g.members f, arrived := remapMask g.arrived f,
           due := g.due.map fun e => (remapSlot f e.1, e.2), carried := g.carried.map fun e => (remapSlot f e.1, e.2),
           results := g.results.map fun e => (remapSlot f e.1, e.2) }

/-- Whether a lifted workgroup may go to a core: a thermal migration stays within the scope of every XPUB (R285). -/
def State.mayMove (s : State) (r : Lifted) (dest : Nat) : Bool :=
  let hot := s.parked.any fun e => e.2.launch == r.launch && e.2.wg == some r.index && e.2.warp.tcause.toNat % 1024 == 0x302
  !hot || r.xpubs.all fun sc => inScope sc r.core dest

/-- Whether the per-launch entries of a core can hold the barrier state of the launch's members on another (R352). -/
def State.phasesHold (s : State) (l from_ dest : Nat) : Bool :=
  from_ == dest || (s.core from_).groups.all fun g => g.launch != l || g.wg.isSome ||
    decide (g.phase ≤ (((s.core dest).groups.find? fun h => h.launch == l && h.image == g.image && h.wg.isNone).map (·.phase)).getD 0)

/-- The state in which a parked context is no longer a member of its old core's per-launch entries, and what they left for it stands
for its new slot (R131, R352). -/
def State.rejoin (s : State) (n : Nat) (e : Parked) (c w : Nat) : State :=
  let old := (s.core e.core).groups
  let s := s.setCore e.core { s.core e.core with groups := old.map fun g => if g.launch = e.launch ∧ g.wg = none then g.forget n else g }
  s.setCore c ((s.core c).arriveGroups old e.launch w n)

/-- A core on which a lifted workgroup has been placed again at a time (R352): its slots, its allocation with its bytes, and its
entries; `bases` gives each warp's context memory. -/
def Core.land (k : Core) (r : Lifted) (e : Launch) (bases : List (Nat × Nat)) (now : Nat) : Core :=
  let h := e.header
  let k := k.withModes h
  let places := k.placeSlots r.launch h.width
  let f : List (Nat × Nat) := r.slots.map fun t => (t.2, places.getD t.1 0)
  let base := (k.allocAt h.scratch).getD 0
  let k := (k.allocate r.launch r.index base h.scratch).viewWrite 1 base r.bytes
  let slots := r.slots.foldl (fun t z =>
    put t (places.getD z.1 0) { launch := r.launch, width := h.width, wg := some r.index, windex := z.1, use := .parked, warp := none,
                                area := (get bases z.1).getD 0, task := none }) k.slots
  let wg : Workgroup := { launch := r.launch, index := r.index, placed := now, rings := false, xpubs := r.xpubs }
  { k with slots := slots, wgs := k.wgs ++ [wg], groups := k.groups ++ r.groups.map (Group.remap · f),
           steals := k.steals.filter fun z => !(f.map Prod.snd).contains z.slot }.launchGroups r.launch e

/-- The state in which the command processor has placed a lifted workgroup on a core, where its contexts are to be restored (R352). -/
def State.land (s : State) (r : Lifted) (e : Launch) (dest : Nat) : State :=
  let places := ((s.core dest).withModes e.header).placeSlots r.launch e.header.width
  let mine := s.parked.filter fun p => p.2.launch == r.launch && p.2.wg == some r.index
  let s := s.setCore dest ((s.core dest).land r e (mine.map fun p => (p.2.windex, p.2.base)) (s.timeOf (coreDie dest)))
  let s := mine.foldl (fun s p => s.rejoin p.1 p.2 dest (places.getD p.2.windex 0)) s
  { s with
    lifted := s.lifted.filter fun z => !(z.launch == r.launch && z.index == r.index),
    parked := s.parked.map fun p =>
      if p.2.launch == r.launch && p.2.wg == some r.index then
        (p.1, { p.2 with core := dest, slot := places.getD p.2.windex 0, out := false })
      else p }

/-! ### Restoring -/

/-- A task's ring space moved from a core to another, where the ring offers it the same place (R352; DESIGN CHOICE, log entry
74). -/
def State.moveStage (s : State) (l from_ dest : Nat) (t : Task) : State :=
  match t.allot with
  | none => s
  | some id =>
    if from_ = dest then s
    else
      let k := s.core from_
      let bytes := k.viewRead 2 t.stageOff t.stageBytes
      let s := s.setCore from_ (k.freeAllot id)
      let k := s.core dest
      match k.allotAt t.stageBytes with
      | none => s
      | some (off, skipped) => s.setCore dest ((k.allot id off t.stageBytes skipped t.words l []).viewWrite 2 off bytes)

/-- The slot with a restored warp. -/
def State.restored (s : State) (i : Nat) (e : Parked) (c w : Nat) (t : Slot) (x : Warp) : State :=
  let s := if e.out then (s.rejoin i e c w).moveStage e.launch e.core c e.warp.task else s
  let s := s.setSlot c w { t with use := .busy, warp := some x, task := none, area := e.base }
  let s := s.setCore c ((s.core c).setSteal w none)
  let k := s.core c
  let now := s.timeOf (coreDie c)
  let s := s.setCore c { k with wgs := k.wgs.map fun g =>
    if g.launch = e.launch ∧ some g.index = e.wg then { g with placed := now } else g }
  { s with parked := del s.parked i }

/-- The state after a context has been loaded into a slot as RSTC loads it, and its warp resumed as ERET resumes it (R346, R351,
R352); a refusal with 0x303 leaves it parked, and another failure fails its launch. -/
def State.restore (s : State) (i : Nat) (e : Parked) (c w : Nat) (t : Slot) : State :=
  let u : Cur := { core := c, slot := w, b := false }
  match e.warp.frozen with
  | none => s
  | some z =>
    match s.readCtx u e.warp z e.area with
    | .wait => s
    | .cause v x =>
      if x.cause = 0x303 then s
      else
        (s.keepLog v).failLaunch e.launch x.cause
          [tcauseOf x.cause false false e.warp.first, e.warp.tpc, e.warp.tmask, BitVec.ofNat 64 (x.info % 2 ^ 32 * 2 ^ 32),
           e.warp.tcause] (if e.wg.isSome then some (c, w) else none)
    | .done v y =>
      match y.frozen with
      | none => s
      | some r =>
        let v := v.setCore e.core ((v.core e.core).clearStall e.slot z.cause)
        (v.checkLeases c r.loaded).restored i e c w t { y.thaw r with status := .running }

/-- Whether a slot may take a parked task: it is a free slot of the task's launch, and the ring of another core offers the task's ring
space the same place (R352). -/
def State.takesTask (s : State) (e : Parked) (c w : Nat) (t : Slot) : Bool :=
  t.launch == e.launch && t.use == .free && (s.core c).mayPop w t &&
    (e.warp.task.allot.isNone || c == e.core ||
      ((s.core c).allotAt e.warp.task.stageBytes).map (·.1) == some e.warp.task.stageOff)

/-- CONTEXT_RESTORE (R352): parked context i to slot w of core c, once its saved area is written; where capacity is missing it
is refused, and stays parked; that of a lifted workgroup first has the workgroup placed on core c (DEDUCED, log entries 51 and 74). -/
def execContextRestore (i c w : Nat) (s : State) : Out :=
  match get s.parked i with
  | none => .next s
  | some e =>
    match s.launch e.launch with
    | none => .next s
    | some l =>
      let ready := l.st == .running && !s.merges l.part && s.applied e.warp.stamped && s.caughtUp (coreDie c) (coreDie e.core)
      if !ready || isFw c || s.partOf c != some l.part || (s.core c).retire || !(s.die (coreDie c)).up then .next s
      else
        match e.wg with
        | some g =>
          if !e.out then
            match s.slot c w with
            | some t => .next (if c = e.core ∧ w = e.slot ∧ t.use = .parked ∧ t.launch = e.launch then s.restore i e c w t else s)
            | none => .next s
          else
            match s.lifted.find? fun r => r.launch == e.launch && r.index == g with
            | none => .next s
            | some r =>
              .next (if s.mayMove r c && s.accepts c && s.fits c e.launch l l.header.wgWarps && s.phasesHold e.launch r.core c then
                  s.land r l c else s)
        | none =>
          match s.slot c w with
          | some t => .next (if s.takesTask e c w t then s.restore i e c w t else s)
          | none => .next s

end Sys2Proof.Machine
end

