-- ==== Sys2Proof/Machine/Platform.lean ====
section
/-! DEFINITION. Rows of the platform: writes of control registers (R7, R171 to R173, R189, R354, R384, R388, R391, R398, R405),
refusals, energy windows, retiring a core (R394), merging and splitting (R395), attestation (R403), bring-up (R401), links, power
and temperature (R397, R404, R405). -/

namespace Sys2Proof.Machine

open Sys2Proof

/-! ### Register writes -/

/-- STEAL_MIN_WRITE (R189): LSTEAL_MIN, or XSTEAL_MIN. -/
def execStealMinWrite (c : Nat) (cross : Bool) (v : DWord) (s : State) : Out :=
  let k := s.core c
  .next (s.setCore c (if cross then { k with xsteal := stealMin k.xsteal v } else { k with lsteal := stealMin k.lsteal v }))

/-- MINRES_WRITE (R354). -/
def execMinresWrite (d : Nat) (v : DWord) (s : State) : Out :=
  .next (s.setDie d { s.die d with minres := minresOf (s.die d).minres v })

/-- REGISTER_WRITE (R7, R383): a write of a register of control space at a level, where the level may make it. -/
def execRegisterWrite (lvl addr : Nat) (v : DWord) (s : State) : Out :=
  if 1 < lvl ∨ !isCtrl addr ∨ (ctrlCause lvl .write addr 8).isSome then .next s else .next (s.ctrlWrite lvl addr v)

/-- PCTL_WRITE (R384), at level 0. -/
def execPctlWrite (p : Nat) (v : DWord) (s : State) : Out := .next (if p < 32 then s.writePctl 0 p v else s)

/-- FWCTL_ENABLE (R171, R173): a write that sets EN. -/
def execFwctlEnable (p w : Nat) (v : DWord) (s : State) : Out :=
  .next (if p < 32 ∧ w < 16 then s.writeWindow p w 0 (v ||| 0x8000000000000000) else s)

/-- FWCTL_DISABLE (R173): a write with EN = 0 and the other fields as they are. -/
def execFwctlDisable (p w : Nat) (s : State) : Out :=
  .next (if p < 32 ∧ w < 16 then s.writeWindow p w 0 (((s.part p).windowRegs w).getD 0 0 &&& 0x7FFFFFFFFFFFFFFF) else s)

/-- ATTACH_WRITE (R398). -/
def execAttachWrite (n : Nat) (v : DWord) (s : State) : Out := .next (if n < 64 then s.writeAttach n v else s)

/-- THERMHOT_WRITE (R405). -/
def execThermhotWrite (d : Nat) (v : DWord) (s : State) : Out :=
  .next (s.setThermhot d v)

/-- REFUSAL_LOG_CLEAR (R388). -/
def execRefusalLogClear (d t : Nat) (s : State) : Out := .next (s.clearLog d t)

/-- ACCESS_REFUSAL (R386 to R388): a request that a target does not admit is refused and logged; those of the machine's own agents are
refused where they are made. -/
def execAccessRefusal (d t mid kind pa : Nat) (s : State) : Out :=
  .next (if s.admits d t mid kind pa then s else s.refuse d t mid kind pa)

/-! ### Shoot-down (R391) and energy (R392) -/

/-- SHOOTDOWN (R391): a write of SHOOT with GO. -/
def execShootdown (p : Nat) (v : DWord) (s : State) : Out :=
  .next (if p < 32 then s.writeShoot p (v ||| 0x8000000000000000) else s)

/-- Whether an access that used a translation dropped by a partition's shoot-down is not performed yet: an operation of a warp
issued before it, or a part of a chunk of an engine, loader or storer. -/
def State.shootDue (s : State) (p : Nat) : Bool :=
  let n := (s.part p).shootFrom
  (s.cores.any fun k => k.2.slots.any fun t => s.slotPart t.2 == some p && match t.2.warp with
    | some x => x.ops.any fun o => decide (o.id < n) && o.path == 1 && !o.done
    | none => false) ||
    (s.engOps.any fun e => e.2.part == p && (!e.2.reads.isEmpty || !e.2.writes.isEmpty)) ||
    s.loaders.any fun q => q.2.any fun r => !r.pieces.isEmpty &&
      ((s.core r.core).allotOf r.allot).any fun a => s.tenantOf a.launch == p

/-- SHOOTDOWN_COMPLETE (R391). -/
def execShootdownComplete (p : Nat) (s : State) : Out :=
  .next (if (s.part p).busy && !s.shootDue p then s.setPart p { s.part p with busy := false } else s)

/-- ENERGY_WINDOW (R392): the first cycles of a window return USED and EXH to 0. -/
def execEnergyWindow (p : Nat) (s : State) : Out :=
  let w := s.timeOf (s.proxyDie p) / 300000
  .next (if p < 32 ∧ (s.part p).window < w then s.setPart p { s.part p with window := w, used := 0, exh := false } else s)

/-! ### Retiring a core (R394) -/

/-- Whether every warp on a core is parked or gone. -/
def Core.cleared (k : Core) : Bool := k.slots.all fun t => t.2.warp.isNone

/-- The state after a spare has taken the place of a retiring core whose warps are parked (R394, steps 4 to 6): L0, the
instruction cache, L1 and the array are empty, and the deque and future table stay (DEDUCED, log entry 71). -/
def State.replaceCore (s : State) (c : Nat) : State :=
  let k := s.core c
  let d := s.die (coreDie c)
  let s := s.setCore c { k with retire := false, retired := true, leases := [], ileases := [], matrix := Matrix.clear, tlb := [] }
  s.setDie (coreDie c) { d with spares := d.spares - 1, l1 := d.l1.filter fun e => e.1 != coreCluster c }

/-- RETIRE (R394): a retirement in progress completes once every warp of the core is parked; else one is asked for. -/
def execRetire (c : Nat) (s : State) : Out :=
  if 512 ≤ c then .next s
  else if (s.core c).retire then .next (if (s.core c).cleared then s.replaceCore c else s)
  else .next (s.startRetire c)

/-! ### Merging and splitting (R395) -/

/-- Whether every warp of a launch is parked. -/
def State.launchParked (s : State) (l : Nat) : Bool :=
  s.cores.all fun k => k.2.slots.all fun t => t.2.launch != l || t.2.warp.isNone

/-- Whether a queue is busy for a drain: a started packet is not a LAUNCH whose warps are all parked, or an engine operation of a
launch or packet of it is not final. -/
def State.queueBusy (s : State) (n : Nat) (q : Queue) : Bool :=
  (q.pkts.any fun p => p.started && !p.finished && !(pktType p.bytes == 1 && p.launches.all s.launchParked)) ||
    s.engOps.any fun e => !e.2.st.final && ((e.2.pkt.map (·.1)) == some n || (s.launch e.2.launch).map (·.queue) == some n)

/-- The busy queues of two partitions, by number. -/
def State.busyQueues (s : State) (a b : Nat) : List Nat :=
  (List.range 4096).filter fun n => match get s.queues n with
    | some q => (q.part == a || q.part == b) && s.queueBusy n q
    | none => false

/-- Whether a partition is one of two. -/
def oneOf (a b : Nat) (p : Option Nat) : Bool := p == some a || p == some b

/-- Whether a line is one of regions 1 to 3. -/
def outer (line : Nat) : Bool := region (128 * line) != 0

/-- The state after step 5: TYPE 1 copies of two partitions are written back and dropped, and no L2 holds a line of regions 1 to 3, nor a
line of the two that was decoded. -/
def State.dropMoved (s : State) (a b : Nat) : State :=
  let s := (List.range 8).foldl (fun s d =>
    ((s.die d).copies1.filter fun c => oneOf a b c.part).foldl (fun s c =>
      let t := s.writeBack (s.sliceWho d c.part) c.line
      t.setDie d ((t.die d).dropCopy1 c.part c.line)) s) s
  let s := ((s.lineKeys.map (·.1)).filter outer).foldl State.unkey s
  let mine (e : Nat × List Byte) : Bool := e.1 / 2 ^ 46 == a + 1 || e.1 / 2 ^ 46 == b + 1
  { s with dies := s.dies.map fun x => { x with copies0 := x.copies0.filter fun e => !outer e.1,
                                                decoded := x.decoded.filter fun e => !mine e } }

/-- Whether a line's copies still have bytes to write back, which wait for the host (R245). -/
def State.movedOwed (s : State) (a b : Nat) : Bool :=
  (List.range 8).any fun d => (s.die d).copies1.any fun c =>
    oneOf a b c.part && (s.writeBack (s.sliceWho d c.part) c.line).owesBack (s.sliceWho d c.part) c.line

/-- The publish states after ownership has moved (R280, R395): the entry of a line of regions 1 to 3 at a slice that one of two partitions
owned stays where the line is still homed there for the slice's present owner. -/
def State.unpublishMoved (s : State) (old : List Nat) : State :=
  let kept (e : Nat × Pub) : Bool :=
    let slice := e.1 / 2 ^ 46 - 1
    let owner := (s.parts.find? fun p => p.2.en && (s.slices (some p.1)).contains slice).map (·.1)
    e.1 / 2 ^ 46 == 0 || !old.contains slice ||
      s.home { die := slice / 16, mid := 0, part := owner, root := none } (128 * (e.1 % 2 ^ 46)) == slice
  { s with pubs := s.pubs.filter kept }

/-- The quarters of a mask. -/
def quartersOf (m : BitVec 32) : List Nat := (List.range 32).filter fun q => m.getLsbD q

/-- The master IDs of a quarter's cores, queue controllers and copy engines (R385). -/
def quarterMids (q : Nat) : List Nat :=
  let d := q / 4 * 256
  let i := q % 4
  ((List.range 16).map fun c => d + 16 * i + c) ++ ((List.range 16).map fun c => d + 0x40 + 16 * i + c) ++
    (List.range 4).map fun u => d + 0x80 + 4 * i + u

/-- The targets of a quarter: its L2 slices and copy engines, by die and number (R386, R388). -/
def quarterTargets (q : Nat) : List (Nat × Nat) :=
  (List.range 4).flatMap fun i => [(q / 4, 32 + 4 * (q % 4) + i), (q / 4, 4 * (q % 4) + i)]

/-- The proxy ID of the owner of some quarters (R382, R385). -/
def proxyOf (m : BitVec 32) : Nat :=
  let q := (quartersOf m).headD 0
  q / 4 * 256 + 0xC0 + q % 4

/-- The state with the WRITER of every record guard of some quarters' slices replaced; a guard left without one is off (R387). -/
def State.mapGuards (s : State) (m : BitVec 32) (f : Nat → Option Nat) : State :=
  let offs := ((quartersOf m).flatMap fun q => (List.range 4).map fun i => q / 4 * 2 ^ 24 + 0x10200 + 0x1000 * (4 * (q % 4) + i)).flatMap
    fun a => (List.range 64).map fun i => a + 8 * i
  { s with ctrl := offs.foldl (fun l a =>
      let g := memNat l a 8
      match f (bitsOf 11 0 g) with
      | some w => if flag 63 g then memWrite l a (toBytes 8 (g - bitsOf 11 0 g + w)) else l
      | none => if flag 63 g then memWrite l a (toBytes 8 0) else l) s.ctrl }

/-- The state with an entry of a target's access table replaced (R386). -/
def State.setTableBits (s : State) (t : Nat × Nat) (mid v : Nat) : State :=
  let a := t.1 * 2 ^ 24 + tableOff t.2 + mid / 4
  let b := (memGet s.ctrl a).toNat
  let sh := 2 * (mid % 4)
  { s with ctrl := memSet s.ctrl a (BitVec.ofNat 8 (b - bitsOf 2 sh b * 2 ^ sh + v % 4 * 2 ^ sh)) }

/-- The union of a target's entries for some master IDs. -/
def State.unionBits (s : State) (t : Nat × Nat) (mids : List Nat) : Nat :=
  mids.foldl (fun a m => a ||| s.tableBits t.1 t.2 m) 0

/-- The state with a target's entries for some master IDs replaced. -/
def State.grantAll (s : State) (t : Nat × Nat) (mids : List Nat) (v : Nat) : State :=
  mids.foldl (fun s m => s.setTableBits t m v) s

/-- The access tables and record guards after a merge of two partitions' quarters (R395, step 6): each target of either gives every master
ID of either the union of their entries, and the merged partition's proxy alone stays, also as the writer of guards
(DEDUCED, log entry 70). -/
def State.mergeTables (s : State) (x y : BitVec 32) : State :=
  let mids := (quartersOf (x ||| y)).flatMap quarterMids
  let old := [proxyOf x, proxyOf y]
  let s := ((quartersOf (x ||| y)).flatMap quarterTargets).foldl (fun s t =>
    let v := s.unionBits t (mids ++ old)
    ((s.grantAll t old 0).grantAll t mids v).setTableBits t (proxyOf (x ||| y)) v) s
  s.mapGuards (x ||| y) fun w => some (if old.contains w then proxyOf (x ||| y) else w)

/-- The access tables and record guards after a split: the targets of each side admit no master ID of the other, each side's proxy has what
the proxy had, and a guard whose writer is the other side's is off (DEDUCED, log entry 70). -/
def State.splitTables (s : State) (old x y : BitVec 32) : State :=
  let side (s : State) (mine other : BitVec 32) : State :=
    let theirs := (quartersOf other).flatMap quarterMids
    let s := ((quartersOf mine).flatMap quarterTargets).foldl (fun s t =>
      let v := s.tableBits t.1 t.2 (proxyOf old)
      ((s.grantAll t theirs 0).grantAll t [proxyOf old, proxyOf other] 0).setTableBits t (proxyOf mine) v) s
    s.mapGuards mine fun w => if theirs.contains w then none else some (if w = proxyOf old then proxyOf mine else w)
  side (side s x y) y x

/-- Format windows with those of another partition in their free numbers, ascending (R395, step 8). -/
def joinWindows (a b : List (Nat × List DWord)) : List (Nat × List DWord) :=
  let used := (a.filter fun w => (w.2.getD 0 0).getLsbD 63).map (·.1)
  let room := (List.range 16).filter fun i => !used.contains i
  let more := (indexed b).map fun e => (room.getD e.1 0, e.2.2)
  (a.filter fun w => used.contains w.1) ++ more

/-- ENBUDGET of a merged partition (R395, step 8; DESIGN CHOICE, log entry 29 for a sum that does not fit). -/
def joinBudget (a b : BitVec 32) : BitVec 32 :=
  if a = 0xFFFFFFFF ∨ b = 0xFFFFFFFF then 0xFFFFFFFF else BitVec.ofNat 32 (min (2 ^ 32 - 2) (a.toNat + b.toNat))

/-- A core whose records of one tenant stand under another's name. -/
def Core.rename (k : Core) (a b : Nat) : Core :=
  let area := match get k.parkedAreas b with
    | some z => put (del k.parkedAreas b) a z
    | none => k.parkedAreas
  if k.tenant = b then { k with tenant := a, parkedAreas := del k.parkedAreas a } else { k with parkedAreas := area }

/-- The state in which everything that names partition B names A (R395, steps 7 and 8 of a merge). -/
def State.joinParts (s : State) (a b : Nat) : State :=
  let x := s.part a
  let y := s.part b
  let u := min (2 ^ 32 - 1) (x.used + y.used)
  let budget := joinBudget x.budget y.budget
  let x := { x with quarters := x.quarters ||| y.quarters, budget := budget, used := u,
                    windows := joinWindows x.windows y.enabledWindows }.weigh
  let y := { y with en := false, quarters := 0, windows := [] }
  let s := (s.setPart a x).setPart b y
  let vf (v : DWord) : DWord := if bitsOf 5 0 v.toNat = b then BitVec.ofNat 64 (v.toNat / 32 * 32 + a) else v
  { s with
    keys := s.keys.map fun e => if e.2.part = b then (e.1, { e.2 with part := a }) else e,
    vfmap := s.vfmap.map fun e => (e.1, vf e.2),
    queues := s.queues.map fun e => if e.2.part = b then (e.1, { e.2 with part := a }) else e,
    launches := s.launches.map fun e => if e.2.part = b then (e.1, { e.2 with part := a }) else e,
    comms := s.comms.filter fun e => e.1.2.1 != b,
    collSeq := s.collSeq.filter fun e => e.1.1.2.1 != b,
    engQueues := s.engQueues.filter fun e => e.1 < 512 || (e.1 - 512) / 2 % 32 != b,
    graphs := s.graphs.filter fun e => e.1.1 != b,
    cores := s.cores.map fun k => (k.1, k.2.rename a b) }

/-- The state in which ownership of quarters has been divided (R395): what partition B is granted, its windows and its budget start empty
(DESIGN CHOICE, log entry 29). -/
def State.divideParts (s : State) (a b : Nat) (mask : BitVec 32) : State :=
  let x := s.part a
  let y := Part.weigh { s.part b with quarters := mask, en := true, budget := 0, used := 0, windows := [] }
  let empty (k : KeySlot) : KeySlot := if k.part = b then { k with granted := false } else k
  let s : State := { s with keys := s.keys.map fun e => (e.1, empty e.2) }
  (s.setPart a { x with quarters := x.quarters &&& ~~~mask }).setPart b y

/-- The state after ownership has moved in a structural operation (R395, steps 5 to 8), with the shoot-down of step 9 started. -/
def State.moveOwnership (s : State) (a : Nat) (m : Merging) : State :=
  let x := s.part a
  let y := s.part m.other
  let old := s.slices (some a) ++ s.slices (some m.other)
  let s := s.dropMoved a m.other
  let s := if m.split then (s.splitTables x.quarters (x.quarters &&& ~~~m.mask) m.mask).divideParts a m.other m.mask
    else (s.mergeTables x.quarters y.quarters).joinParts a m.other
  let s := s.unpublishMoved old
  let s := s.setPart a { s.part a with merging := some { m with moved := true }, busy := false }
  s.writeShoot a 0xA000000000000000

/-- The state after a structural operation of A has ended with a code (R395): QUIESCE is 0 in A, and in B where the operation was refused;
A's MERGESTAT tells. -/
def State.endMerge (s : State) (a : Nat) (m : Merging) (refused : Bool) (stat : DWord) : State :=
  let s := if refused then s.setPart m.other { s.part m.other with quiesce := false } else s
  s.setPart a { s.part a with quiesce := false, mergestat := stat, merging := none }

/-- The state after the next step that a structural operation of a partition can take. -/
def State.advanceMerge (s : State) (a : Nat) (m : Merging) : State :=
  if m.moved then (if (s.part a).busy then s else s.endMerge a m false 0)
  else if (s.busyQueues a m.other).isEmpty && !s.movedOwed a m.other then s.moveOwnership a m
  else s

/-- The state in which a drain that has not been reached in time has refused its operation, with the lowest busy queue (R395, step 4). -/
def State.drainOver (s : State) (a : Nat) (m : Merging) : State :=
  if m.moved || decide (s.timeOf (s.proxyDie a) ≤ m.until_) then s
  else match s.busyQueues a m.other with
    | [] => s
    | q :: _ => s.endMerge a m true (BitVec.ofNat 64 (q * 2 ^ 36 + 2))

/-- The state in which every drain that is over has refused its operation: no later end of what kept it waiting can save it (R396). -/
def State.drainsOver (s : State) : State :=
  s.parts.foldl (fun s e => match e.2.merging with
    | some m => s.drainOver e.1 m
    | none => s) s

/-- A row of a structural operation: one in progress goes on, else one is asked for by a write of MERGECTL. -/
def mergeRow (p : Nat) (split : Bool) (v : DWord) (s : State) : Out :=
  match (s.part p).merging with
  | some m => .next (if m.split = split then s.advanceMerge p m else s)
  | none =>
    let op : DWord := if split then 0x4000000000000000 else 0
    .next (if p < 32 then s.writeMerge p (0x8000000000000000 ||| op ||| (v &&& 0x3FFFFFFFFFFFFFFF)) else s)

/-- MERGE (R395). -/
def execMerge (p : Nat) (v : DWord) (s : State) : Out := mergeRow p false v s

/-- SPLIT (R395). -/
def execSplit (p : Nat) (v : DWord) (s : State) : Out := mergeRow p true v s

/-- MERGE_DRAIN_TIMEOUT (R395, step 4): a drain that is not reached in time refuses the operation. -/
def execMergeDrainTimeout (p : Nat) (s : State) : Out :=
  match (s.part p).merging with
  | none => .next s
  | some m => .next (s.drainOver p m)

/-! ### Attestation (R403) -/

/-- The lead die (R401). -/
def State.lead (s : State) : Nat := bitsOf 3 8 s.host.bootstat.toNat

/-- CFGMEAS (Table 3): the digest of the PCTL values and then every KEYOWN (DEDUCED, log entry 73). -/
def State.cfgmeas (s : State) : List Byte :=
  sha512 (((List.range 32).flatMap fun p => toBytes 8 (s.part p).pctl.toNat) ++
    (List.range 8192).flatMap fun k => toBytes 8 (s.keySlot k).keyown.toNat)

/-- FWSVN (Table 3): the security version of the running image. -/
def State.fwsvn (s : State) : List Byte := toBytes 4 ((s.firmware.map (·.1)).getD Config.fwsvn.toNat)

/-- FWMEAS (Table 3): SHA-512 of the running image. -/
def State.fwmeas (s : State) : List Byte := (s.firmware.map fun f => sha512 f.2).getD (toBytes 64 Config.fwmeas.toNat)

/-- The signed part of a report (Table 3). -/
def State.reportBody (s : State) : List Byte :=
  [0x56, 0x41, 0x54, 0x31] ++ toBytes 2 1 ++ toBytes 1 s.lead ++ toBytes 1 (s.host.bootstat.toNat % 256) ++
    toBytes 16 Config.serial.toNat ++ s.fwsvn ++ toBytes 4 0 ++ s.fwmeas ++
    s.cfgmeas ++ toBytes 64 s.host.nonce.toNat

/-- A report, 736 bytes: the body, and its signature under the lead die's 4,096-bit identity key (R400, R403). -/
def State.report (s : State) : List Byte :=
  let key := Config.identity s.lead
  s.reportBody ++ pssSign (key.1 % 2 ^ 4095 + 2 ^ 4095) key.2 s.reportBody (toBytes 64 (Config.salt s.free).toNat)

/-- Whether a report may be written at an address (R403, item 4). -/
def State.reportAt (s : State) (pa : Nat) : Bool :=
  pa % 4096 == 0 && !inAperture pa && region pa == 2 && (s.attachOf pa).isSome

/-- The state after lines of bytes have been written at a physical address; nothing while it must wait, and whether a target
refused one. -/
def State.writePhys (w : Who) (pa : Nat) (b : List Byte) : State → List (Nat × Nat) → Option (State × Bool)
  | s, [] => some (s, true)
  | s, (off, n) :: r =>
    let z := s.pass w 2 1 (pa + off) true
    if z.2.isSome then some (z.1, false)
    else
      match s.store w 2 false (pa + off) (indexed ((b.drop off).take n)) none with
      | none => none
      | some t => State.writePhys w pa b t r

/-- A host page whose request has been taken: DONE and ERR clear, BUSY set (R403). -/
def HostPage.taken (h : HostPage) : HostPage := { h with busy := true, done := false, err := false }

/-- A host page whose request has ended, well or not. -/
def HostPage.ended (h : HostPage) (ok : Bool) : HostPage := { h with busy := false, done := ok, err := !ok }

/-- Whether the host reaches the module host page: a port of a running die is trained (R401). -/
def State.hostPageShown (s : State) : Bool := s.dies.any fun x => x.up && x.ports.any (·.1)

/-- ATTEST_REQUEST (R403): the host writes NONCE, ATTADDR, whose bits [63:52] stay 0, and GO; the lead die writes the report, or sets
ERR. -/
def execAttestRequest (addr : DWord) (nonce : BitVec 512) (s : State) : Out :=
  let addr := keepBits addr 0x000FFFFFFFFFFFFF
  let h := { s.host with attaddr := addr, nonce := nonce }
  if !(s.die s.lead).up || !s.hostPageShown then .next s
  else if h.busy then .next { s with host := h }
  else
    let t := { s with host := h.taken }
    let w : Who := { die := s.lead, mid := s.lead * 256 + 0xA0, part := none, root := none }
    if !t.reportAt addr.toNat then .next { t with host := h.taken.ended false }
    else
      match State.writePhys w addr.toNat t.report t (linePieces addr.toNat 736) with
      | none => .next s
      | some (u, ok) => .next (if ok then u else { u with host := h.taken.ended false })

/-- ATTEST_DONE (R403): the host has acknowledged every write of the report, or a write has failed. -/
def execAttestDone (ok : Bool) (s : State) : Out :=
  .next (if s.host.busy then { s with host := s.host.ended ok } else s)

/-! ### Bring-up, links, power and temperature -/

/-- What a reset leaves as it was: memory outside the module, and the count of free values (DEDUCED, log entry 72). -/
def State.outlast (s t : State) : State :=
  { t with mem := s.mem.filter (fun e => region e.1 != 0 && !inAperture e.1), free := s.free }

/-- What a signature of a firmware image covers, and the key that it comes with, as bytes (R400; DESIGN CHOICE, log entry 3). -/
def imageSigned (i : FwImage) : List Byte := toBytes 8 i.load ++ toBytes 4 i.version ++ i.bytes
/-- The public key. -/
def imageRoot (i : FwImage) : List Byte := bytesBe 512 i.modulus ++ bytesBe 4 i.exponent

/-- Whether a die's boot ROM accepts an image (R400). -/
def imageAccepted (i : FwImage) (d : Nat) : Bool :=
  sha512 (imageRoot i) == bytesBe 64 (Config.rootDigest d).toNat && pssVerify i.modulus i.exponent (imageSigned i) i.signature &&
    decide (Config.minVersion d ≤ i.version)

/-- The dies whose boot ROM accepts an image. -/
def imageDies (i : FwImage) : BitVec 8 := (maskOf 8 (imageAccepted i)).setWidth 8

/-- The state in which the boot ROM has loaded an image at the address that FWVEC holds (R400). -/
def State.loadImage (s : State) (i : FwImage) : State :=
  { s with mem := memWrite s.mem s.image i.bytes, firmware := some (i.version, i.bytes) }

/-- POWER_GOOD (R400 to R402): reset and bring-up, of a module that is not up: each die's boot ROM verifies the image in flash, and an
accepted one is loaded where its header says; some cores fail their test, and some ports train. -/
def execPowerGood (img : FwImage) (failing : List Nat) (up : BitVec 32) (s : State) : Out :=
  .next (if s.host.bootstat.getLsbD 63 then s
    else
      let t := s.outlast (bringUp (imageDies img) failing up (BitVec.ofNat 64 (bitsOf 45 12 img.load * 4096)))
      if imageDies img = 0 then t else t.loadImage img)

/-- PORT_LINK_CHANGE (R397): a link goes down, or trains again. -/
def execPortLinkChange (port : Nat) (up : Bool) (s : State) : Out :=
  let d := s.die (port / 4)
  let n := (d.ports.getD (port % 4) (false, 0)).2
  .next (if d.up && decide (port < 32) then
      s.setDie (port / 4) { d with ports := d.ports.set (port % 4) (up, if up then min 255 (n + 1) else n) }
    else s)

/-- POWER_LIMIT (R404): the limiter begins or ceases to stop placement and steals. -/
def execPowerLimit (on : Bool) (s : State) : Out := .next { s with limiting := on }

/-- A core that reports a temperature, and is hot or not by it (R405). -/
def State.setTemp (s : State) (c t : Nat) : State :=
  let k := s.core c
  if c < 512 ∧ t < 256 then s.setCore c { k with temp := t, hot := hotAt k.hot t (s.die (coreDie c)).thermhot } else s

/-- CORE_HOT (R405): a core reports a temperature at which it may become hot. -/
def execCoreHot (c t : Nat) (s : State) : Out := .next (s.setTemp c t)

/-- CORE_COOL (R405): a core reports a temperature at which it may stop being hot. -/
def execCoreCool (c t : Nat) (s : State) : Out := .next (s.setTemp c t)

/-- CRITICAL_RESET (R405): the module is reset: memory and contexts are lost, and no die runs until bring-up (POWER_GOOD). -/
def execCriticalReset (d : Nat) (s : State) : Out :=
  .next (if (s.die d).up then s.outlast (bringUp 0 [] 0 0) else s)

end Sys2Proof.Machine
end

