-- ==== Sys2Proof/Machine/Reduce.lean ====
section
/-! DEFINITION. Reductions and scans over a warp, and reductions over a group (R128 to R131). -/

namespace Sys2Proof.Machine

open Sys2Proof

/-- The values that the places of a warp contribute: the source in active lanes, the identity elsewhere (R129, R130). -/
def Warp.contributions (x : Warp) (p : Split) (f : Fmt3) (fn : Nat) : List Word :=
  let act := x.active p f.g f.neg
  (List.range x.width).map fun l =>
    if act.getLsbD l then x.val p (intConst f.x) f.a.toNat l else reduceIdentity fn f.x

/-- The value of a warp by the fixed tree, with the flags raised in it (R129). -/
def Warp.reduced (x : Warp) (p : Split) (f : Fmt3) (fn : Nat) : Word × Nat :=
  combineTree fn f.x x.width.log2 (x.contributions p f fn)

/-- What a lane receives: a value where it is active, and in an enabled half of a lane that is not, a value that the spec does
not state (DESIGN CHOICE, log entry 31). -/
def Warp.received (x : Warp) (p : Split) (f : Fmt3) (l : Nat) (v : Word) : Word :=
  if (x.active p f.g f.neg).getLsbD l then v else Config.idleHalf l (x.contributions p f (f.b.toNat % 16))

/-- Every active lane receives a reduction's value, and the word is finished (R99, R129). -/
def Warp.spread (x : Warp) (b : Bool) (p : Split) (f : Fmt3) (v : Word) : Warp :=
  x.laneResult b p f.nw f.g f.neg f.d.toNat (elemBytes f.x) fun l => x.received p f l v

/-- The ARITH cause of a reduction's tree: TMASK holds every active lane (R156). -/
def Warp.treeCause (x : Warp) (p : Split) (f : Fmt3) (flags : Nat) : Option Trap :=
  arithCause x.fpc x.width fun l => if (x.active p f.g f.neg).getLsbD l then flags else 0

/-- An entry at which a slot has arrived carrying a reduction's function and value (R131). -/
def Group.carry (e : Group) (w : Nat) (due : List Nat) (fn : Nat) (h2 : Bool) (v : Word) : Group :=
  { e.arrive w due with carried := put e.carried w (fn, h2, v) }

/-- REDX.grp before it arrives: the causes in the order of R140 and R131, then the arrival (R131). k0, which it reads without an
operand field, is checked for a pending mark whatever lanes are enabled, and reported by its uniform code 0 (DEDUCED, log entry 82). -/
def arriveRedx (f : Fmt3) (s : State) (c : Cur) (x : Warp) (p : Split) : Except Trap State :=
  let fn := f.b.toNat % 16
  let g := (x.uval p 0).toNat % 256
  match x.readCause p (laneSources (x.enabledLanes p f.g f.neg (elemBytes f.x)) [f.a.toNat] ++ uniSources true [0]) with
  | some t => .error t
  | none =>
    match s.groupFor c x g false with
    | .error t => .error t
    | .ok e =>
      if x.live != 1 then .error (Trap.of 0x2C5 g)
      else
        let r := x.reduced p f fn
        match x.treeCause p f r.2 with
        | some t => .error t
        | none =>
          .ok ((s.updGroup c x.launch g (·.carry c.slot x.dueWrites fn f.x r.1)).putWarp c
            ((x.raise r.2).touched.setSplit c.b (some (p.block (.redx g e.phase) (wordOf (.redx f))))))

/-- REDX.grp once it has arrived: it is blocked until its phase leaves it a total, or 0x2C5, which it then takes (R131). -/
def awaitRedx (f : Fmt3) (s : State) (c : Cur) (x : Warp) (p : Split) (g ph : Nat) : Except Trap State :=
  match ((s.core c.core).group x.launch c.slot g).bind fun e => e.result c.slot ph with
  | none => .ok s
  | some none =>
    .ok (((s.updGroup c x.launch g (·.collect c.slot ph)).putWarp c
      (x.setSplit c.b (some { p with wait := .none }))).take c (Trap.of 0x2C5 g) (wordOf (.redx f)))
  | some (some v) =>
    .ok ((s.updGroup c x.launch g (·.collect c.slot ph)).putWarp c
      (x.spread c.b { p.unbuffer with wait := .none } f v))

/-- REDX (R128, R129, R131). -/
def execRedx (f : Fmt3) (s : State) : Out :=
  issue (.redx f) s fun s c x p =>
    if f.b.getLsbD 5 then
      match p.wait with
      | .redx g ph => awaitRedx f s c x p g ph
      | _ => arriveRedx f s c x p
    else
      match x.readCause p (laneSources (x.enabledLanes p f.g f.neg (elemBytes f.x)) [f.a.toNat]) with
      | some t => .error t
      | none =>
        let r := x.reduced p f (f.b.toNat % 16)
        match x.treeCause p f r.2 with
        | some t => .error t
        | none => .ok (s.putWarp c ((x.raise r.2).spread c.b p f r.1))

/-- The running combinations of a list from an accumulator: before each place, or after it (R130). -/
def scanFrom (fn : Nat) (h2 excl : Bool) : Word → List Word → List Word
  | _, [] => []
  | acc, v :: r =>
    let n := (combine fn h2 acc v).1
    (if excl then acc else n) :: scanFrom fn h2 excl n r

/-- SCAN (R130). -/
def execScan (f : Fmt3) (s : State) : Out :=
  laneWord (.scan f) s f.nw f.g f.neg f.d.toNat (elemBytes f.x) [f.a.toNat] fun x p l =>
    let fn := f.b.toNat % 16
    x.received p f l ((scanFrom fn f.x (f.b.getLsbD 4) (reduceIdentity fn f.x) (x.contributions p f fn)).getD l 0)

end Sys2Proof.Machine
end

