-- ==== Sys2Proof/Machine/Dispatch.lean ====
section
/-! DEFINITION. Dispatch: one arm per constructor of Instr, each one call of that row's meaning. -/

namespace Sys2Proof.Machine

open Sys2Proof

/-- The meaning of a row of the opcode table. -/
def exec (i : Instr) (s : State) : Host.Outcome State Fault Refusal :=
  match i with
  | .nop f => Sys2Proof.Machine.execNop f s
  | .if_ f => Sys2Proof.Machine.execIf f s
  | .else_ f => Sys2Proof.Machine.execElse f s
  | .endif f => Sys2Proof.Machine.execEndif f s
  | .do_ f => Sys2Proof.Machine.execDo f s
  | .enddo f => Sys2Proof.Machine.execEnddo f s
  | .brk f => Sys2Proof.Machine.execBrk f s
  | .cont f => Sys2Proof.Machine.execCont f s
  | .brx f => Sys2Proof.Machine.execBrx f s
  | .rcv f => Sys2Proof.Machine.execRcv f s
  | .bar f => Sys2Proof.Machine.execBar f s
  | .bara f => Sys2Proof.Machine.execBara f s
  | .barw f => Sys2Proof.Machine.execBarw f s
  | .trig f => Sys2Proof.Machine.execTrig f s
  | .yield f => Sys2Proof.Machine.execYield f s
  | .exit f => Sys2Proof.Machine.execExit f s
  | .mov f => Sys2Proof.Machine.execMov f s
  | .movi f => Sys2Proof.Machine.execMovi f s
  | .iadd f => Sys2Proof.Machine.execIadd f s
  | .isub f => Sys2Proof.Machine.execIsub f s
  | .imul f => Sys2Proof.Machine.execImul f s
  | .imulh f => Sys2Proof.Machine.execImulh f s
  | .imad f => Sys2Proof.Machine.execImad f s
  | .imin f => Sys2Proof.Machine.execImin f s
  | .imax f => Sys2Proof.Machine.execImax f s
  | .iabs f => Sys2Proof.Machine.execIabs f s
  | .addi f => Sys2Proof.Machine.execAddi f s
  | .and f => Sys2Proof.Machine.execAnd f s
  | .or f => Sys2Proof.Machine.execOr f s
  | .xor f => Sys2Proof.Machine.execXor f s
  | .andn f => Sys2Proof.Machine.execAndn f s
  | .andi f => Sys2Proof.Machine.execAndi f s
  | .ori f => Sys2Proof.Machine.execOri f s
  | .xori f => Sys2Proof.Machine.execXori f s
  | .shl f => Sys2Proof.Machine.execShl f s
  | .shr f => Sys2Proof.Machine.execShr f s
  | .sar f => Sys2Proof.Machine.execSar f s
  | .rot f => Sys2Proof.Machine.execRot f s
  | .shli f => Sys2Proof.Machine.execShli f s
  | .shri f => Sys2Proof.Machine.execShri f s
  | .sari f => Sys2Proof.Machine.execSari f s
  | .popc f => Sys2Proof.Machine.execPopc f s
  | .clz f => Sys2Proof.Machine.execClz f s
  | .brev f => Sys2Proof.Machine.execBrev f s
  | .bfx f => Sys2Proof.Machine.execBfx f s
  | .bfi f => Sys2Proof.Machine.execBfi f s
  | .redx f => Sys2Proof.Machine.execRedx f s
  | .scan f => Sys2Proof.Machine.execScan f s
  | .icmpW f => Sys2Proof.Machine.execIcmpW f s
  | .icmpH2 f => Sys2Proof.Machine.execIcmpH2 f s
  | .icmpB4 f => Sys2Proof.Machine.execIcmpB4 f s
  | .fcmp f => Sys2Proof.Machine.execFcmp f s
  | .bcmp2 f => Sys2Proof.Machine.execBcmp2 f s
  | .plog f => Sys2Proof.Machine.execPlog f s
  | .pset f => Sys2Proof.Machine.execPset f s
  | .pget f => Sys2Proof.Machine.execPget f s
  | .sel f => Sys2Proof.Machine.execSel f s
  | .shfl f => Sys2Proof.Machine.execShfl f s
  | .shflup f => Sys2Proof.Machine.execShflup f s
  | .shfldn f => Sys2Proof.Machine.execShfldn f s
  | .shflx f => Sys2Proof.Machine.execShflx f s
  | .vote f => Sys2Proof.Machine.execVote f s
  | .match_ f => Sys2Proof.Machine.execMatch f s
  | .fadd f => Sys2Proof.Machine.execFadd f s
  | .fsub f => Sys2Proof.Machine.execFsub f s
  | .fmul f => Sys2Proof.Machine.execFmul f s
  | .ffma f => Sys2Proof.Machine.execFfma f s
  | .fmin f => Sys2Proof.Machine.execFmin f s
  | .fmax f => Sys2Proof.Machine.execFmax f s
  | .badd2 f => Sys2Proof.Machine.execBadd2 f s
  | .bmul2 f => Sys2Proof.Machine.execBmul2 f s
  | .bfma2 f => Sys2Proof.Machine.execBfma2 f s
  | .hadd2 f => Sys2Proof.Machine.execHadd2 f s
  | .hmul2 f => Sys2Proof.Machine.execHmul2 f s
  | .hfma2 f => Sys2Proof.Machine.execHfma2 f s
  | .frcp f => Sys2Proof.Machine.execFrcp f s
  | .frsq f => Sys2Proof.Machine.execFrsq f s
  | .fsqrt f => Sys2Proof.Machine.execFsqrt f s
  | .fexp2 f => Sys2Proof.Machine.execFexp2 f s
  | .flog2 f => Sys2Proof.Machine.execFlog2 f s
  | .fsin f => Sys2Proof.Machine.execFsin f s
  | .fcos f => Sys2Proof.Machine.execFcos f s
  | .ftanh f => Sys2Proof.Machine.execFtanh f s
  | .cvt f => Sys2Proof.Machine.execCvt f s
  | .cvtp f => Sys2Proof.Machine.execCvtp f s
  | .cvtu f => Sys2Proof.Machine.execCvtu f s
  | .frnd f => Sys2Proof.Machine.execFrnd f s
  | .i2f f => Sys2Proof.Machine.execI2f f s
  | .f2i f => Sys2Proof.Machine.execF2i f s
  | .mxq f => Sys2Proof.Machine.execMxq f s
  | .mxd f => Sys2Proof.Machine.execMxd f s
  | .dot4 f => Sys2Proof.Machine.execDot4 f s
  | .lds f => Sys2Proof.Machine.execLds f s
  | .sts f => Sys2Proof.Machine.execSts f s
  | .ats f => Sys2Proof.Machine.execAts f s
  | .fpush f => Sys2Proof.Machine.execFpush f s
  | .fpop f => Sys2Proof.Machine.execFpop f s
  | .fpeek f => Sys2Proof.Machine.execFpeek f s
  | .pref f => Sys2Proof.Machine.execPref f s
  | .waitc f => Sys2Proof.Machine.execWaitc f s
  | .ldg f => Sys2Proof.Machine.execLdg f s
  | .ldga f => Sys2Proof.Machine.execLdga f s
  | .stg f => Sys2Proof.Machine.execStg f s
  | .stgl f => Sys2Proof.Machine.execStgl f s
  | .atgCore f => Sys2Proof.Machine.execAtgCore f s
  | .atgClus f => Sys2Proof.Machine.execAtgClus f s
  | .atgDie f => Sys2Proof.Machine.execAtgDie f s
  | .atgPkg f => Sys2Proof.Machine.execAtgPkg f s
  | .atgSys f => Sys2Proof.Machine.execAtgSys f s
  | .redgDie f => Sys2Proof.Machine.execRedgDie f s
  | .redgPkg f => Sys2Proof.Machine.execRedgPkg f s
  | .redgSys f => Sys2Proof.Machine.execRedgSys f s
  | .spawn f => Sys2Proof.Machine.execSpawn f s
  | .spawnt f => Sys2Proof.Machine.execSpawnt f s
  | .tagset f => Sys2Proof.Machine.execTagset f s
  | .tagv f => Sys2Proof.Machine.execTagv f s
  | .rdlane f => Sys2Proof.Machine.execRdlane f s
  | .wrlane f => Sys2Proof.Machine.execWrlane f s
  | .bra f => Sys2Proof.Machine.execBra f s
  | .call f => Sys2Proof.Machine.execCall f s
  | .calli f => Sys2Proof.Machine.execCalli f s
  | .ret f => Sys2Proof.Machine.execRet f s
  | .hloop f => Sys2Proof.Machine.execHloop f s
  | .bri f => Sys2Proof.Machine.execBri f s
  | .gang f => Sys2Proof.Machine.execGang f s
  | .umov f => Sys2Proof.Machine.execUmov f s
  | .uldk f lit0 lit1 => Sys2Proof.Machine.execUldk f lit0 lit1 s
  | .uadd f => Sys2Proof.Machine.execUadd f s
  | .usub f => Sys2Proof.Machine.execUsub f s
  | .umul f => Sys2Proof.Machine.execUmul f s
  | .umulh f => Sys2Proof.Machine.execUmulh f s
  | .umad f => Sys2Proof.Machine.execUmad f s
  | .uand f => Sys2Proof.Machine.execUand f s
  | .uor f => Sys2Proof.Machine.execUor f s
  | .uxor f => Sys2Proof.Machine.execUxor f s
  | .ushl f => Sys2Proof.Machine.execUshl f s
  | .ushr f => Sys2Proof.Machine.execUshr f s
  | .usar f => Sys2Proof.Machine.execUsar f s
  | .uaddi f => Sys2Proof.Machine.execUaddi f s
  | .uandi f => Sys2Proof.Machine.execUandi f s
  | .ushli f => Sys2Proof.Machine.execUshli f s
  | .ushri f => Sys2Proof.Machine.execUshri f s
  | .umin f => Sys2Proof.Machine.execUmin f s
  | .umax f => Sys2Proof.Machine.execUmax f s
  | .upopc f => Sys2Proof.Machine.execUpopc f s
  | .uclz f => Sys2Proof.Machine.execUclz f s
  | .ucmp f => Sys2Proof.Machine.execUcmp f s
  | .uplog f => Sys2Proof.Machine.execUplog f s
  | .usel f => Sys2Proof.Machine.execUsel f s
  | .mfs f => Sys2Proof.Machine.execMfs f s
  | .mts f => Sys2Proof.Machine.execMts f s
  | .join f => Sys2Proof.Machine.execJoin f s
  | .ftest f => Sys2Proof.Machine.execFtest f s
  | .fcancel f => Sys2Proof.Machine.execFcancel f s
  | .texit f => Sys2Proof.Machine.execTexit f s
  | .dqlen f => Sys2Proof.Machine.execDqlen f s
  | .tself f => Sys2Proof.Machine.execTself f s
  | .ldu f => Sys2Proof.Machine.execLdu f s
  | .stu f => Sys2Proof.Machine.execStu f s
  | .atu f => Sys2Proof.Machine.execAtu f s
  | .rwb f => Sys2Proof.Machine.execRwb f s
  | .rinv f => Sys2Proof.Machine.execRinv f s
  | .rwbi f => Sys2Proof.Machine.execRwbi f s
  | .fence f => Sys2Proof.Machine.execFence f s
  | .xpub f => Sys2Proof.Machine.execXpub f s
  | .waitv f => Sys2Proof.Machine.execWaitv f s
  | .qfence f => Sys2Proof.Machine.execQfence f s
  | .xprobe f => Sys2Proof.Machine.execXprobe f s
  | .cpy f => Sys2Proof.Machine.execCpy f s
  | .cpy2d f => Sys2Proof.Machine.execCpy2d f s
  | .coll f => Sys2Proof.Machine.execColl f s
  | .eqstat f => Sys2Proof.Machine.execEqstat f s
  | .mma f => Sys2Proof.Machine.execMma f s
  | .mmat f => Sys2Proof.Machine.execMmat f s
  | .mperm f => Sys2Proof.Machine.execMperm f s
  | .mred f => Sys2Proof.Machine.execMred f s
  | .mload f => Sys2Proof.Machine.execMload f s
  | .mstore f => Sys2Proof.Machine.execMstore f s
  | .mres f => Sys2Proof.Machine.execMres f s
  | .mresq f => Sys2Proof.Machine.execMresq f s
  | .mfence f => Sys2Proof.Machine.execMfence f s
  | .mwait f => Sys2Proof.Machine.execMwait f s
  | .mgrad f => Sys2Proof.Machine.execMgrad f s
  | .mzero f => Sys2Proof.Machine.execMzero f s
  | .trap f => Sys2Proof.Machine.execTrap f s
  | .eret f => Sys2Proof.Machine.execEret f s
  | .savec f => Sys2Proof.Machine.execSavec f s
  | .rstc f => Sys2Proof.Machine.execRstc f s
  | .sigs f => Sys2Proof.Machine.execSigs f s
  | .bkpt f => Sys2Proof.Machine.execBkpt f s
  | .bankset f => Sys2Proof.Machine.execBankset f s
  | .bankq f => Sys2Proof.Machine.execBankq f s
  | .lvcall f => Sys2Proof.Machine.execLvcall f s
  | .lvret f => Sys2Proof.Machine.execLvret f s
  | .rgset f => Sys2Proof.Machine.execRgset f s
  | .loadReturn a b c d => Sys2Proof.Machine.execLoadReturn a b c d s
  | .writePerformed a b c d => Sys2Proof.Machine.execWritePerformed a b c d s
  | .asyncDelivery a b => Sys2Proof.Machine.execAsyncDelivery a b s
  | .barrierPhaseComplete a b => Sys2Proof.Machine.execBarrierPhaseComplete a b s
  | .joinResume a b c => Sys2Proof.Machine.execJoinResume a b c s
  | .waitvWake a b c => Sys2Proof.Machine.execWaitvWake a b c s
  | .ringPerform a b c => Sys2Proof.Machine.execRingPerform a b c s
  | .slotRelease a b => Sys2Proof.Machine.execSlotRelease a b s
  | .slotReturn a b => Sys2Proof.Machine.execSlotReturn a b s
  | .ownerPop a b => Sys2Proof.Machine.execOwnerPop a b s
  | .stealRequest a => Sys2Proof.Machine.execStealRequest a s
  | .stealRotation a b => Sys2Proof.Machine.execStealRotation a b s
  | .stealAnswer a b => Sys2Proof.Machine.execStealAnswer a b s
  | .closureArrival a b => Sys2Proof.Machine.execClosureArrival a b s
  | .stageAhead a b => Sys2Proof.Machine.execStageAhead a b s
  | .tileLoadDone a b c => Sys2Proof.Machine.execTileLoadDone a b c s
  | .taskStart a b => Sys2Proof.Machine.execTaskStart a b s
  | .storerDone a b => Sys2Proof.Machine.execStorerDone a b s
  | .loaderRequest a b c => Sys2Proof.Machine.execLoaderRequest a b c s
  | .tenantSwitch a b => Sys2Proof.Machine.execTenantSwitch a b s
  | .leaseExpiry a b => Sys2Proof.Machine.execLeaseExpiry a b s
  | .revokeProbe a b => Sys2Proof.Machine.execRevokeProbe a b s
  | .coherenceProbe a b c => Sys2Proof.Machine.execCoherenceProbe a b c s
  | .remoteWriteApply a b => Sys2Proof.Machine.execRemoteWriteApply a b s
  | .l2Eviction a b => Sys2Proof.Machine.execL2Eviction a b s
  | .type1Fill a b c => Sys2Proof.Machine.execType1Fill a b c s
  | .hostSectorGrant a b c => Sys2Proof.Machine.execHostSectorGrant a b c s
  | .fradonInbound a b c d => Sys2Proof.Machine.execFradonInbound a b c d s
  | .engineAccept a => Sys2Proof.Machine.execEngineAccept a s
  | .engineChunk a => Sys2Proof.Machine.execEngineChunk a s
  | .engineResolve a => Sys2Proof.Machine.execEngineResolve a s
  | .collPeerEnd a => Sys2Proof.Machine.execCollPeerEnd a s
  | .gangRendezvous a b => Sys2Proof.Machine.execGangRendezvous a b s
  | .matrixRow a => Sys2Proof.Machine.execMatrixRow a s
  | .arrayClear a => Sys2Proof.Machine.execArrayClear a s
  | .preemptRequest a b => Sys2Proof.Machine.execPreemptRequest a b s
  | .migrateRequest a b c => Sys2Proof.Machine.execMigrateRequest a b c s
  | .contextRestore a b c => Sys2Proof.Machine.execContextRestore a b c s
  | .debugStop a b => Sys2Proof.Machine.execDebugStop a b s
  | .debugResume a b => Sys2Proof.Machine.execDebugResume a b s
  | .debugStep a b => Sys2Proof.Machine.execDebugStep a b s
  | .notify a b => Sys2Proof.Machine.execNotify a b s
  | .wptrPoll a => Sys2Proof.Machine.execWptrPoll a s
  | .skip a => Sys2Proof.Machine.execSkip a s
  | .flush a => Sys2Proof.Machine.execFlush a s
  | .flushDone a => Sys2Proof.Machine.execFlushDone a s
  | .pktNop a => Sys2Proof.Machine.execPktNop a s
  | .launch a => Sys2Proof.Machine.execLaunch a s
  | .copy a => Sys2Proof.Machine.execCopy a s
  | .pktColl a => Sys2Proof.Machine.execPktColl a s
  | .pktWaitv a => Sys2Proof.Machine.execPktWaitv a s
  | .signal a => Sys2Proof.Machine.execSignal a s
  | .andbar a => Sys2Proof.Machine.execAndbar a s
  | .indirect a => Sys2Proof.Machine.execIndirect a s
  | .graphDefine a => Sys2Proof.Machine.execGraphDefine a s
  | .graphRun a => Sys2Proof.Machine.execGraphRun a s
  | .graphNodeStart a b => Sys2Proof.Machine.execGraphNodeStart a b s
  | .packetCompletion a => Sys2Proof.Machine.execPacketCompletion a s
  | .workgroupPlace a => Sys2Proof.Machine.execWorkgroupPlace a s
  | .launchDepStart a => Sys2Proof.Machine.execLaunchDepStart a s
  | .launchComplete a => Sys2Proof.Machine.execLaunchComplete a s
  | .queueCreate a b c d e f g h j => Sys2Proof.Machine.execQueueCreate a b c d e f g h j s
  | .queueDestroy a => Sys2Proof.Machine.execQueueDestroy a s
  | .commSlotWrite a b c d => Sys2Proof.Machine.execCommSlotWrite a b c d s
  | .stealMinWrite a b c => Sys2Proof.Machine.execStealMinWrite a b c s
  | .minresWrite a b => Sys2Proof.Machine.execMinresWrite a b s
  | .registerWrite a b c => Sys2Proof.Machine.execRegisterWrite a b c s
  | .pctlWrite a b => Sys2Proof.Machine.execPctlWrite a b s
  | .fwctlEnable a b c => Sys2Proof.Machine.execFwctlEnable a b c s
  | .fwctlDisable a b => Sys2Proof.Machine.execFwctlDisable a b s
  | .attachWrite a b => Sys2Proof.Machine.execAttachWrite a b s
  | .thermhotWrite a b => Sys2Proof.Machine.execThermhotWrite a b s
  | .refusalLogClear a b => Sys2Proof.Machine.execRefusalLogClear a b s
  | .accessRefusal a b c d e => Sys2Proof.Machine.execAccessRefusal a b c d e s
  | .shootdown a b => Sys2Proof.Machine.execShootdown a b s
  | .shootdownComplete a => Sys2Proof.Machine.execShootdownComplete a s
  | .energyWindow a => Sys2Proof.Machine.execEnergyWindow a s
  | .retire a => Sys2Proof.Machine.execRetire a s
  | .merge a b => Sys2Proof.Machine.execMerge a b s
  | .split a b => Sys2Proof.Machine.execSplit a b s
  | .mergeDrainTimeout a => Sys2Proof.Machine.execMergeDrainTimeout a s
  | .attestRequest a b => Sys2Proof.Machine.execAttestRequest a b s
  | .attestDone a => Sys2Proof.Machine.execAttestDone a s
  | .powerGood a b c => Sys2Proof.Machine.execPowerGood a b c s
  | .portLinkChange a b => Sys2Proof.Machine.execPortLinkChange a b s
  | .powerLimit a => Sys2Proof.Machine.execPowerLimit a s
  | .coreHot a b => Sys2Proof.Machine.execCoreHot a b s
  | .coreCool a b => Sys2Proof.Machine.execCoreCool a b s
  | .criticalReset a => Sys2Proof.Machine.execCriticalReset a s

end Sys2Proof.Machine
end

