-- ==== Sys2Proof/Machine/Elapse.lean ====
section
/-! DEFINITION. What passes with a step: energy, time, drains whose time is over, and the next turn. -/

namespace Sys2Proof.Machine

open Sys2Proof

/-- The core whose meter a turn's energy goes to. -/
def turnCore : Turn → Option Nat
  | .issue c _ _ _ => some c
  | .prefetch c _ _ => some c
  | .read c _ _ _ => some c
  | .event _ => none

/-- The state with energy drawn by a core and its partition (R392). -/
def State.draw (s : State) (c e : Nat) : State :=
  let k := s.core c
  let s := s.setCore c { k with energy := metered k.energy e }
  match s.partOf c with
  | some p => s.setPart p ((s.part p).draw e)
  | none => s

/-- The state after a step: the next turn, the time bases and the meters take free values (log entries 2, 10, 11), and a drain
whose time is over fails (R395, R396). -/
def State.elapse (s : State) : State :=
  let t : State := match turnCore s.turn with
    | some c => s.draw c (Config.energy s.free 0)
    | none => s
  let u : State := { t with
    turn := Config.turn s.free, free := s.free + 1, dies := t.dies.map fun d => { d with cycles := d.cycles + Config.ticks s.free } }
  u.drainsOver

/-- The outcome after time has passed. -/
def turnOver : Out → Out
  | .next s => .next s.elapse
  | r => r

end Sys2Proof.Machine
end

