-- ==== Sys2Proof/Machine/Step.lean ====
section
/-! DEFINITION. One step: the turn's row is performed, and then time passes and the next turn is taken. -/

namespace Sys2Proof.Machine

open Sys2Proof

/-- Whether a row is a store or fence of a warp, or no more than lets one be performed. -/
def State.storing (s : State) : Instr → Bool
  | .stg _ | .stgl _ | .stu _ | .fence _ | .remoteWriteApply _ _ => true
  | .writePerformed c w o _ => ((s.warp c w).bind fun x => x.ops.find? (·.id == o)).any fun e => e.path == 1 && e.kind == .store
  | _ => false

/-- The state as a row begins: any row that is no store or fence ends a warp's run of stores (R264, log entry 20). -/
def State.begun (s : State) (i : Instr) : State := if s.storing i then s else { s with solo := none }

/-- The machine's step (DESIGN CHOICE, log entry 33). -/
def step (s : State) : Host.Outcome State Fault Refusal :=
  match s.turn with
  | .issue c w b ready => turnOver (s.issueTurn { core := c, slot := w, b := b } ready fun i s => exec i (s.begun i))
  | .prefetch c w b => turnOver (.next (s.prefetch { core := c, slot := w, b := b }))
  | .read c w o lanes => turnOver (.next (({ s with solo := none } : State).performReads c w o lanes))
  | .event i => turnOver (if (encodeHead i).isNone then exec i (s.begun i) else .next s)

/-! ### A word placed where the next step fetches (DESIGN CHOICE, log entry 30) -/

/-- The launch record of the placed word's kernel: width 16, every named register, no handler, page tables at 0x10000. -/
def placedLaunch : Launch :=
  { queue := 0, pkt := 0, node := none, part := 0, root := 0x10000, pool := 0x40000000, poolSize := 1, kernel := 0x20000,
    header := { width := 16, wgWarps := 1, nv := 32, ns := 32, modes := [0, 0, 0, 0], scratch := 0, trapOff := 0, tasks := [],
                groups := [], energy := 0, fpcrm := 0, nosteal := false, noxsteal := false, textBytes := 64 },
    nx := 1, ny := 1, nz := 1, tslots := 0, args := 0, k1 := 0, ident := 0, placed := 1, last := some 0, exited := 0,
    st := .running, cause := 0, record := [], errAt := none, stamped := List.replicate 8 0, due := List.replicate 8 0 }

/-- Core 0 with that kernel's one warp on slot 0. -/
def placedCore : Core :=
  let slot : Slot := { launch := 1, width := 16, wg := some 0, windex := 0, use := .busy,
                       warp := some (placedLaunch.rootWarp 1 0 0 0x40000000), area := 0x40000000, task := none }
  { Core.reset with modeVec := some [0, 0, 0, 0], slots := [(0, slot)],
                    wgs := [{ launch := 1, index := 0, placed := 0, rings := false, xpubs := [] }] }

/-- Page tables that map the first two GiB to themselves, TYPE 0, key 0: the first readable and executable, the second, which
holds the context memory, readable and writable (R231, R232). -/
def placedTables (m : List Host.Cell) : List Host.Cell :=
  memWrite (memWrite (memWrite m 0x10000 (toBytes 8 0x11001)) 0x11000 (toBytes 8 0x12001)) 0x12000
    (toBytes 8 0x59 ++ toBytes 8 0x20000039)

/-- A key slot whose key is written and granted to partition 0 (R389). -/
def placedKey : KeySlot := { material := 0, written := 0xFF, granted := true, part := 0 }

/-- Whether a word is one that only a firmware core executes: LVCALL, LVRET, RGSET (R35). -/
def isFirmwareWord (w : Nat) : Bool := 0xF8 ≤ w / 2 ^ 24 % 256 && w / 2 ^ 24 % 256 ≤ 0xFA

/-- The state with an instruction where the next step fetches: on core 0 for a compute core's word, with the launch, tables, key,
access entry and line state that the fetch needs; at the firmware entry of core 512 for a firmware core's word. -/
def State.withFetchWord (s : State) (nbits w : Nat) : State :=
  let w := w % 2 ^ nbits
  let b := toBytes 12 w
  let s := { s with ctrl := memWrite s.ctrl (tableOff 32) [0xFF] }
  if isFirmwareWord w then
    let pc := match (s.warp 512 0).bind (·.a) with
      | some p => p.pc.toNat
      | none => 0xD000
    { s with turn := .issue 512 0 false true, mem := memWrite s.mem pc b,
             pubs := put s.pubs (pc / 128) .clean,
             ctrl := memWrite s.ctrl (tableOff 32 + 0xA0 / 4) [0xFF] }
  else
    { s with turn := .issue 0 0 false true, mem := memWrite (placedTables s.mem) 0x20040 b,
             cores := put s.cores 0 placedCore, launches := put s.launches 1 placedLaunch, serial := max 2 s.serial,
             parts := put s.parts 0 { s.part 0 with en := true, quarters := 1 }, keys := put s.keys 0 placedKey,
             pubs := put s.pubs (0x20040 / 128) .clean }

end Sys2Proof.Machine
end

