-- ==== Sys2Proof/WellFormed.lean ====
section
/-! DEFINITION. Which instructions a kernel may hold: those whose words pass every check of Table 10 (R53). -/

namespace Sys2Proof

/-- Whether an instruction passes the checks of Table 10 under a kernel's width and register counts. An event is no
instruction word and passes; the unused literal of a one-literal ULDK is 0 (R36). -/
def Instr.wellFormed (e : Env) (i : Instr) : Bool :=
  (decodeFault e i).isNone &&
    match i with
    | .uldk f _ l1 => f.x || l1 == 0
    | _ => true

end Sys2Proof
end

