-- ==== Sys2Proof/Safety.lean ====
section
/-! DEFINITION. A safe step: it ends in a next state; and the shapes that the statements share: what it is for an instruction to end
in a next state in which nothing but the named parts have changed. -/

namespace Sys2Proof

open Sys2Proof.Machine

/-- Whether an outcome is a next state. -/
def Machine.Ok : Out → Prop
  | .next _ => True
  | _ => False

end Sys2Proof

namespace Sys2Proof.Claims

open Sys2Proof Sys2Proof.Machine

/-! ### The issuing split -/

/-- The warp x stands on the slot that issues, p in the split slot that issues, and both issues of the word agree (R114; of a word whose
issues disagree `Mismatches` says what it takes). -/
structure At (s : State) (x : Warp) (p : Split) : Prop where
  warp : s.warp s.cur.core s.cur.slot = some x
  split : x.split s.cur.b = some p
  fits : x.misfit = none

/-- The instruction ends in a next state in which nothing but the issuing warp has changed, which is now y. -/
def Gives (i : Instr) (s : State) (y : Warp) : Prop := exec i s = .next (s.putWarp s.cur y)

/-- The instruction takes a cause at its word: a next state with the trap's entry. -/
def Takes (i : Instr) (s : State) (t : Trap) : Prop := exec i s = .next (s.take s.cur t (wordOf i))

/-- As `Takes` for a word of the switching class, which has cleared its split's latches first (R106). -/
def TakesCleared (i : Instr) (s : State) (x : Warp) (p : Split) (t : Trap) : Prop :=
  exec i s = .next ((s.putWarp s.cur (x.setSplit s.cur.b (some p.clearLatches))).take s.cur t (wordOf i))

/-- The issuing warp of a word of the switching class, once the word has cleared its split's latches (R106). -/
def cleared (s : State) (x : Warp) (p : Split) : Warp := x.setSplit s.cur.b (some p.clearLatches)

/-! ### Sources -/

/-- Lane sources read without a cause: each latch among them is valid, and in every lane that is read no value is pending, but for one
that SAVEC has withdrawn, and none carries poison (R104, R106, R215, R347). -/
def LanesReadable (x : Warp) (p : Split) (act : LaneMask) (codes : List Nat) : Prop :=
  ∀ c ∈ codes,
    (48 ≤ c → c ≤ 51 → (p.l.getD (c - 48) LatchL.empty).valid = true) ∧
    ∀ l < x.width, act.getLsbD l = true →
      (x.src p (.int 32) c l).pend.any (fun z => !x.withdrew z.op) = false ∧ (x.src p (.int 32) c l).poison = none

/-- Uniform sources read without a cause; with a false guard only the validity of a latch counts. -/
def UniReadable (x : Warp) (p : Split) (g : Bool) (codes : List Nat) : Prop :=
  ∀ c ∈ codes,
    (48 ≤ c → c ≤ 51 → (p.m.getD (c - 48) LatchM.empty).valid = true) ∧
    (g = true → (x.usrc p c).pend.any (fun z => !x.withdrew z.1) = false ∧ (x.usrc p c).poison = none)

/-! ### Results -/

/-- A lane's new cell after a result whose enabled bytes are `en` (R99): the result where every byte is enabled, the old cell
where none is, and byte by byte otherwise. -/
def Merged (en : BitVec 4) (res : Word) (old new : Cell32) : Prop :=
  (en = 15 → new = Cell32.of res) ∧ (en = 0 → new = old) ∧
  ∀ k < 4, new.v.extractLsb' (8 * k) 8 = if en.getLsbD k then res.extractLsb' (8 * k) 8 else old.v.extractLsb' (8 * k) 8

/-- The cell that a lane's disabled bytes keep (R99): l0 while it is valid for a result that only latches, else q0 or the named
register. -/
def oldLane (x : Warp) (p : Split) (nw : Bool) (d l : Nat) : Cell32 :=
  if nw then
    if (p.l.getD 0 LatchL.empty).valid then (p.l.getD 0 LatchL.empty).cells.getD l (Cell32.of 0) else Cell32.of 0
  else if d = 0 then (x.lane l).q.getD 0 (Cell32.of 0)
  else (x.lane l).v.getD (d - 16) (Cell32.of 0)

/-- The instruction ends in a next state in which the issuing split has written back the lane result `res` in the bytes `en` of
each lane and gone on to the next word (R99, R105): lanes of other splits keep everything; in the split's lanes the result is
pushed (d = 0), or stands in the named register d − 16, or (nw) in no register; l0 takes the result and the older latches move
up. `base` is the warp with what else the instruction changes. Everything else is unchanged. -/
def GivesLane (i : Instr) (s : State) (x base : Warp) (p : Split) (nw : Bool) (d : Nat) (en : Nat → BitVec 4)
    (res : Nat → Word) : Prop :=
  ∃ (N : Nat → Cell32) (L : List Lane) (C : List Cell32) (h : Bool),
    Gives i s (({ base with lanes := L, dirty := h }.setSplit s.cur.b
      (some { p with l := { valid := true, cells := C } :: p.l.take 3 })).advance s.cur.b) ∧
    L.length = base.lanes.length ∧ C.length = x.width ∧
    (∀ l, p.mask.getLsbD l = true → Merged (en l) (res l) (oldLane x p nw d l) (N l)) ∧
    (∀ l a, base.lanes[l]? = some a → L[l]? = some (
      if p.mask.getLsbD l then
        if nw then a
        else if d = 0 then { a with q := N l :: a.q.take 15 }
        else { a with v := a.v.set (d - 16) (N l) }
      else a)) ∧
    ∀ l < x.width, p.mask.getLsbD l = true → C[l]? = some (N l)

/-- The instruction ends in a next state in which the issuing split has written back the uniform result `res` where the guard is
true, and its old value where it is false, and gone on n bytes (R100, R105). -/
def GivesUni (i : Instr) (s : State) (x : Warp) (p : Split) (nw : Bool) (d : Nat) (g : Bool) (res : DWord) (n : Nat) : Prop :=
  ∃ (c : Cell64) (h : Bool),
    (g = true → c = Cell64.of res) ∧
    (g = false → c =
      if nw then (if (p.m.getD 0 LatchM.empty).valid then (p.m.getD 0 LatchM.empty).cell else Cell64.of 0)
      else if d = 0 then x.k.getD 0 (Cell64.of 0) else x.s.getD (d - 16) (Cell64.of 0)) ∧
    Gives i s ((({ x with
        k := if !nw && d == 0 then c :: x.k.take 15 else x.k
        s := if !nw && d != 0 then x.s.set (d - 16) c else x.s
        dirty := h }).setSplit s.cur.b
      (some { p with m := { valid := true, cell := c } :: p.m.take 3 })).advanceBy s.cur.b n)

/-- An operation on the one 32-bit element, or on the two 16-bit elements (x = 1), of three sources. -/
def onHalves (x : Bool) (op : (w : Nat) → BitVec w → BitVec w → BitVec w → BitVec w) (a b c : Word) : Word :=
  if x then op 16 (a.extractLsb' 16 16) (b.extractLsb' 16 16) (c.extractLsb' 16 16) ++
            op 16 (a.extractLsb' 0 16) (b.extractLsb' 0 16) (c.extractLsb' 0 16)
  else op 32 a b c

/-- The operation on 64 bits, or on the low 32 bits with the result sign-extended (x = 1) (R134). -/
def onWide (x : Bool) (op : (w : Nat) → BitVec w → BitVec w → BitVec w → BitVec w) (a b c : DWord) : DWord :=
  if x then (op 32 (a.setWidth 32) (b.setWidth 32) (c.setWidth 32)).signExtend 64 else op 64 a b c

/-- An L3 integer instruction with two sources. -/
def LaneBin (mk : Fmt3 → Instr) (op : (w : Nat) → BitVec w → BitVec w → BitVec w) : Prop :=
  ∀ (f : Fmt3) (s : State) (x : Warp) (p : Split), At s x p →
    let n := if f.x then 2 else 4
    let k : Const := .int (if f.x then 16 else 32)
    LanesReadable x p (x.enabledLanes p f.g f.neg n) [f.a.toNat, f.b.toNat] →
    GivesLane (mk f) s x x p f.nw f.d.toNat (x.enabled p f.g f.neg n) fun l =>
      onHalves f.x (fun w a b _ => op w a b) (x.val p k f.a.toNat l) (x.val p k f.b.toNat l) 0

/-- An L3 integer instruction with one source. -/
def LaneUn (mk : Fmt3 → Instr) (op : (w : Nat) → BitVec w → BitVec w) : Prop :=
  ∀ (f : Fmt3) (s : State) (x : Warp) (p : Split), At s x p →
    let n := if f.x then 2 else 4
    LanesReadable x p (x.enabledLanes p f.g f.neg n) [f.a.toNat] →
    GivesLane (mk f) s x x p f.nw f.d.toNat (x.enabled p f.g f.neg n) fun l =>
      onHalves f.x (fun w a _ _ => op w a) (x.val p (.int (if f.x then 16 else 32)) f.a.toNat l) 0 0

/-- An L4 integer instruction. -/
def LaneTri (mk : Fmt4 → Instr) (op : (w : Nat) → BitVec w → BitVec w → BitVec w → BitVec w) : Prop :=
  ∀ (f : Fmt4) (s : State) (x : Warp) (p : Split), At s x p →
    let n := if f.x then 2 else 4
    let k : Const := .int (if f.x then 16 else 32)
    LanesReadable x p (x.enabledLanes p f.g f.neg n) [f.a.toNat, f.b.toNat, f.c.toNat] →
    GivesLane (mk f) s x x p f.nw 0 (x.enabled p f.g f.neg n) fun l =>
      onHalves f.x op (x.val p k f.a.toNat l) (x.val p k f.b.toNat l) (x.val p k f.c.toNat l)

/-- An LI integer instruction: a source and the sign-extended immediate. -/
def LaneImm (mk : FmtI → Instr) (op : Word → Word → Word) : Prop :=
  ∀ (f : FmtI) (s : State) (x : Warp) (p : Split), At s x p →
    LanesReadable x p (x.enabledLanes p f.g f.neg 4) [f.a.toNat] →
    GivesLane (mk f) s x x p f.nw 0 (x.enabled p f.g f.neg 4) fun l =>
      op (x.val p (.int 32) f.a.toNat l) (f.imm.signExtend 32)

/-- The field length of BFX and BFI in an element of w bits (R117). -/
def bitFieldLen (w : Nat) (b : BitVec w) : Nat := min w ((b >>> 8).toNat % (if w = 32 then 64 else 32))

/-- The w-bit pattern with ones at [pos + len − 1 : pos]. -/
def onesAt (w pos len : Nat) : BitVec w := (BitVec.ofNat w (2 ^ len - 1)) <<< pos

/-! ### Predicates, flags and conditions -/

/-- The instruction ends in a next state in which the split has written bits of the lane predicate dp in the bytes `en` of each
lane, ANDed with the old bit if `andIn`, and gone on to the next word (R110). Everything else is as in `base`. -/
def GivesPred (i : Instr) (s : State) (base : Warp) (p : Split) (dp : Nat) (andIn : Bool) (en : Nat → BitVec 4)
    (bits : Nat → Nat → Bool) : Prop :=
  ∃ (L : List Lane) (h : Bool),
    Gives i s ({ base with lanes := L, dirty := h }.advance s.cur.b) ∧ L.length = base.lanes.length ∧
    ∀ l a, base.lanes[l]? = some a → ∃ q : BitVec 4,
      L[l]? = some (if p.mask.getLsbD l then { a with p := a.p.set dp q } else a) ∧
      ∀ i < 4, q.getLsbD i =
        if (en l).getLsbD i then bits l i && (!andIn || (a.p.getD dp 0).getLsbD i) else (a.p.getD dp 0).getLsbD i

/-- No lane raises a condition whose trap FPC enables (R156): condition j of INEXACT, UNDERFLOW, OVERFLOW, DIVZERO, INVALID is
bit j of a lane's flags and trap enable 8 + j of FPC. -/
def NoTrap (x : Warp) (flags : Nat → Nat) : Prop :=
  ∀ l < x.width, ∀ j < 5, x.fpc.getLsbD (8 + j) = true → (flags l).testBit j = false

/-- A warp in whose FPC the flags of every lane are raised (R154, R155). -/
def raised (x : Warp) (flags : Nat → Nat) : Warp :=
  { x with fpc := x.fpc ||| BitVec.ofNat 64 (8 * (List.range x.width).foldl (fun a l => a ||| flags l) 0) }

/-- An integer condition (Table 4 of R44) on two values. -/
def intHolds {w : Nat} (cc : BitVec 3) (a b : BitVec w) : Bool :=
  match cc.toNat with
  | 0 => a == b
  | 1 => a != b
  | 2 => a.slt b
  | 3 => a.sle b
  | 4 => b.slt a
  | 5 => b.sle a
  | 6 => a.ult b
  | _ => a.ule b

/-- Element k of n bytes of a word. -/
def part (n k : Nat) (w : Word) : BitVec (8 * n) := w.extractLsb' (8 * n * k) (8 * n)

/-- An integer compare on elements of n bytes. -/
def LaneCmp (mk : FmtP → Instr) (n : Nat) : Prop :=
  ∀ (f : FmtP) (s : State) (x : Warp) (p : Split), At s x p →
    LanesReadable x p (x.enabledLanes p f.g f.neg n) [f.a.toNat, f.b.toNat] →
    GivesPred (mk f) s x p f.dp.toNat f.x (x.enabled p f.g f.neg n) fun l i =>
      intHolds f.cc (part n (i / n) (x.val p (.int (8 * n)) f.a.toNat l)) (part n (i / n) (x.val p (.int (8 * n)) f.b.toNat l))

/-- A value of a floating format. -/
def numOf (fmt : FloatFmt) (n k : Nat) (w : Word) : Machine.Num := fmt.unpack (part n k w).toNat

/-- A floating compare on elements of n bytes: a signalling NaN in an enabled element raises INVALID (R119, R150). -/
def LaneFloatCmp (mk : FmtP → Instr) (n : Nat) (c : Const) (fmt : FloatFmt) : Prop :=
  ∀ (f : FmtP) (s : State) (x : Warp) (p : Split), At s x p →
    let en := x.enabled p f.g f.neg n
    let a (l e : Nat) : Machine.Num := numOf fmt n e (x.val p c f.a.toNat l)
    let b (l e : Nat) : Machine.Num := numOf fmt n e (x.val p c f.b.toNat l)
    let fl (l : Nat) : Nat := if ∃ e < 4 / n, (en l).getLsbD (n * e) = true ∧ ((a l e).isSig = true ∨ (b l e).isSig = true) then 16 else 0
    LanesReadable x p (x.enabledLanes p f.g f.neg n) [f.a.toNat, f.b.toNat] → NoTrap x fl →
    GivesPred (mk f) s (raised x fl) p f.dp.toNat f.x en fun l i => floatCond f.cc.toNat (a l (i / n)) (b l (i / n))

/-- The bit of a lane predicate that a field names, inverted by bit 3 of the field (R121, R123, R126). -/
def fieldBit (a : Lane) (fld : BitVec 6) (k : Nat) : Bool := (a.pred (fld.toNat % 8)).getLsbD k != fld.getLsbD 3

/-! ### Floating instructions -/

/-- The enabled elements of a lane below element e, for elements of n bytes: how many stochastic draws come before it (R148). -/
def drawsBefore (en : BitVec 4) (n e : Nat) : Nat := ((List.range e).filter fun k => en.getLsbD (n * k)).length

/-- The stochastic state that element e of a lane uses in mode SR: one step for each enabled element up to it (R148). -/
def drawOf (rm : Rnd) (x : Warp) (en : BitVec 4) (n l e : Nat) : Word :=
  if rm = .sr then srAfter (drawsBefore en n e + 1) (x.lane l).sr else 0

/-- The flags that the enabled elements of a lane raise. -/
def elemFlags (en : BitVec 4) (n : Nat) (r : Nat → Flo) : Nat :=
  (List.range (4 / n)).foldl (fun a e => if en.getLsbD (n * e) then a ||| (r e).flags else a) 0

/-- A floating instruction on elements of n bytes whose element e of lane l gives `r l e` (pattern and flags): it raises the flags
of its enabled elements, advances the stochastic state once per enabled element in mode SR, and writes its result back. -/
def GivesFloat (i : Instr) (s : State) (x : Warp) (p : Split) (nw : Bool) (d n : Nat) (en : Nat → BitVec 4) (rm : Rnd)
    (r : Nat → Nat → Flo) : Prop :=
  let fl (l : Nat) : Nat := elemFlags (en l) n (r l)
  NoTrap x fl →
  ∃ (w : Nat → Word) (L : List Lane),
    (∀ l, ∀ e < 4 / n, (en l).getLsbD (n * e) = true → part n e (w l) = BitVec.ofNat (8 * n) (r l e).bits) ∧
    L.length = x.lanes.length ∧
    (∀ (l : Nat) (a : Lane), x.lanes[l]? = some a →
      L[l]? = some (if rm = .sr then { a with sr := srAfter (drawsBefore (en l) n (4 / n)) a.sr } else a)) ∧
    GivesLane i s x { raised x fl with lanes := L } p nw d en w

/-- The mode that x selects: RNE, or that of FPC (R40, R157). -/
def modeOf (x : Warp) (fpc : Bool) : Rnd := if fpc then rndOf (x.fpc.toNat % 8) else .rne

/-- A floating instruction with two sources, on elements of n bytes of a format. -/
def FloatBin (mk : Fmt3 → Instr) (n : Nat) (k : Const) (fmt : FloatFmt) (op : Rnd → Word → Machine.Num → Machine.Num → Flo) : Prop :=
  ∀ (f : Fmt3) (s : State) (x : Warp) (p : Split), At s x p →
    LanesReadable x p (x.enabledLanes p f.g f.neg n) [f.a.toNat, f.b.toNat] →
    GivesFloat (mk f) s x p f.nw f.d.toNat n (x.enabled p f.g f.neg n) (modeOf x f.x) fun l e =>
      op (modeOf x f.x) (drawOf (modeOf x f.x) x (x.enabled p f.g f.neg n l) n l e)
        (numOf fmt n e (x.val p k f.a.toNat l)) (numOf fmt n e (x.val p k f.b.toNat l))

/-- A fused multiply-add, on elements of n bytes of a format. -/
def FloatTri (mk : Fmt4 → Instr) (n : Nat) (k : Const) (fmt : FloatFmt) : Prop :=
  ∀ (f : Fmt4) (s : State) (x : Warp) (p : Split), At s x p →
    LanesReadable x p (x.enabledLanes p f.g f.neg n) [f.a.toNat, f.b.toNat, f.c.toNat] →
    GivesFloat (mk f) s x p f.nw 0 n (x.enabled p f.g f.neg n) (modeOf x f.x) fun l e =>
      fmt.fma (modeOf x f.x) (drawOf (modeOf x f.x) x (x.enabled p f.g f.neg n l) n l e)
        (numOf fmt n e (x.val p k f.a.toNat l)) (numOf fmt n e (x.val p k f.b.toNat l)) (numOf fmt n e (x.val p k f.c.toNat l))

/-- A floating instruction with one F32 source; `rounds` when x selects its mode. -/
def FloatUn (mk : Fmt3 → Instr) (rounds : Bool) (op : Rnd → Word → Word → Flo) : Prop :=
  ∀ (f : Fmt3) (s : State) (x : Warp) (p : Split), At s x p →
    let rm := if rounds then modeOf x f.x else .rne
    LanesReadable x p (x.enabledLanes p f.g f.neg 4) [f.a.toNat] →
    GivesFloat (mk f) s x p f.nw f.d.toNat 4 (x.enabled p f.g f.neg 4) rm fun l e =>
      op rm (drawOf rm x (x.enabled p f.g f.neg 4 l) 4 l e) (x.val p .f32 f.a.toNat l)

/-! ### Conversions -/

/-- The rounding mode of a conversion (R46). -/
def convMode (x : Warp) (rm : BitVec 3) : Rnd := if rm = 7 then rndOf (x.fpc.toNat % 8) else rndOf rm.toNat

/-- A conversion whose active lanes get `r l` (pattern and flags) in the bytes `bytes` of the result, with n draws per active lane
where it rounds in mode SR (R161). -/
def GivesConv (i : Instr) (f : FmtV) (s : State) (x : Warp) (p : Split) (bytes : BitVec 4) (n : Nat) (draws : Bool)
    (r : Nat → Flo) : Prop :=
  let act := x.active p f.g f.neg
  let fl (l : Nat) : Nat := if act.getLsbD l then (r l).flags else 0
  LanesReadable x p act [f.a.toNat] → NoTrap x fl →
  ∃ L : List Lane, L.length = x.lanes.length ∧
    (∀ (l : Nat) (a : Lane), x.lanes[l]? = some a → L[l]? = some (if draws = true ∧ act.getLsbD l = true then { a with sr := srAfter n a.sr } else a)) ∧
    GivesLane i s x { raised x fl with lanes := L } p f.nw 0 (fun l => if act.getLsbD l then bytes else 0)
      fun l => BitVec.ofNat 32 (r l).bits

/-! ### Uniform instructions -/

/-- A U3 integer instruction with two sources. -/
def UniBin (mk : Fmt3 → Instr) (op : (w : Nat) → BitVec w → BitVec w → BitVec w) : Prop :=
  ∀ (f : Fmt3) (s : State) (x : Warp) (p : Split), At s x p →
    let g := x.cguard f.g f.neg
    UniReadable x p g [f.a.toNat, f.b.toNat] →
    GivesUni (mk f) s x p f.nw f.d.toNat g
      (onWide f.x (fun w a b _ => op w a b) (x.uval p f.a.toNat) (x.uval p f.b.toNat) 0) 4

/-- A U3 integer instruction with one source. -/
def UniUn (mk : Fmt3 → Instr) (op : (w : Nat) → BitVec w → BitVec w) : Prop :=
  ∀ (f : Fmt3) (s : State) (x : Warp) (p : Split), At s x p →
    let g := x.cguard f.g f.neg
    UniReadable x p g [f.a.toNat] →
    GivesUni (mk f) s x p f.nw f.d.toNat g (onWide f.x (fun w a _ _ => op w a) (x.uval p f.a.toNat) 0 0) 4

/-- A UI integer instruction: the immediate is sign-extended to 64 bits. -/
def UniImm (mk : FmtI → Instr) (op : DWord → DWord → DWord) : Prop :=
  ∀ (f : FmtI) (s : State) (x : Warp) (p : Split), At s x p →
    let g := x.cguard f.g f.neg
    UniReadable x p g [f.a.toNat] →
    GivesUni (mk f) s x p f.nw 0 g (op (x.uval p f.a.toNat) (f.imm.signExtend 64)) 4

/-- The instruction writes bit dp of the uniform predicates where its guard is true, ANDed with the old bit if `andIn`. -/
def GivesC (i : Instr) (s : State) (x : Warp) (dp : Nat) (andIn g v : Bool) : Prop :=
  ∃ c : BitVec 7, Gives i s ({ x with c := c }.advance s.cur.b) ∧
    ∀ j < 7, c.getLsbD j = if j = dp ∧ g = true then v && (!andIn || x.c.getLsbD j) else x.c.getLsbD j

/-- The uniform predicate that a field names, inverted by bit 3 of the field (R121, R124). -/
def cBit (x : Warp) (fld : BitVec 6) : Bool := (x.cpred (fld.toNat % 8)) != fld.getLsbD 3

/-! ### Control flow -/

/-- The lanes of a warp with the nesting counters of the split's lanes changed (R71). -/
def Nest (x : Warp) (p : Split) (f : Nat → Nat → Nat) (L : List Lane) : Prop :=
  L.length = x.lanes.length ∧
  ∀ (l : Nat) (a : Lane), x.lanes[l]? = some a →
    L[l]? = some (if p.mask.getLsbD l then { a with n := BitVec.ofNat 8 (f l a.n.toNat) } else a)

/-- Whether some lane of the split has a counter with a property, among given lanes. -/
def SomeNest (x : Warp) (p : Split) (q : Nat → Prop) : Prop :=
  ∃ l < x.width, p.mask.getLsbD l = true ∧ q (x.lane l).n.toNat

/-- cond(l) of R71: bit 0 of the named predicate, after the negate bit. -/
def laneCond (x : Warp) (f : FmtL) (l : Nat) : Bool := ((x.lane l).pred f.g.toNat).getLsbD 0 != f.neg

/-- The address of a word plus four times a signed number of words (R52). -/
def wordAt (pc : VA) (n : Int) : VA := pc + BitVec.ofInt 57 (4 * n)


/-! ### Words that leave an operation in flight (R103, R106, R220) -/

/-- The state s1, the warp x and the split p on which the word i issues in s: a word of the switching class has cleared its split's
latches (R106). -/
def Opens (i : Instr) (s s1 : State) (x : Warp) (p : Split) : Prop :=
  ∃ (x0 : Warp) (p0 : Split), At s x0 p0 ∧
    if isSwitching i then x = cleared s x0 p0 ∧ p = p0.clearLatches ∧ s1 = s.putWarp s.cur x
    else x = x0 ∧ p = p0 ∧ s1 = s

/-- The instruction ends in the state t, in which the issuing warp is y. -/
def Ends (i : Instr) (s t : State) (y : Warp) : Prop := exec i s = .next (t.putWarp s.cur y)

/-- The instruction takes a cause at its word, from the state s1 in which it issued. -/
def TakesAt (i : Instr) (s s1 : State) (t : Trap) : Prop := exec i s = .next (s1.take s.cur t (wordOf i))

/-- The instruction ends in the state t, with its operation in flight behind those the warp has issued (R220); the warp is else y. -/
def Issues (i : Instr) (s t : State) (y : Warp) (o : Op) : Prop :=
  exec i s = .next (t.fresh.putWarp s.cur { y with ops := y.ops ++ [o] })

/-- How many operations of a path the warp has in flight: the counter of R220. -/
def inFlight (x : Warp) (path : Nat) : Nat := (x.ops.filter fun o => o.path == path).length

/-- The sources of a lane memory word read without a cause: its base where a lane is active, its offset and more. -/
def MemReadable (x : Warp) (p : Split) (f : FmtM) (act : LaneMask) (codes : List Nat) : Prop :=
  (act ≠ 0 → UniReadable x p true [16 + f.base.toNat]) ∧ LanesReadable x p act (f.a.toNat :: codes)

/-- A warp y that is x with E words of operation `op` expected at destination d (R103): in the lanes of `act` each of the E words is
pending, pushed so that q0 is word 0 (d = 0), or in the registers from d on; a lane of the split that is not active copies q0 E times,
or keeps its registers. -/
def ExpectsLanes (x y : Warp) (p : Split) (act : LaneMask) (op d e : Nat) : Prop :=
  ∃ (L : List Lane) (h : Bool), y = { x with lanes := L, dirty := h } ∧ L.length = x.lanes.length ∧
    ∀ (l : Nat) (a : Lane), x.lanes[l]? = some a → ∃ b : Lane, L[l]? = some b ∧
      (p.mask.getLsbD l = false → b = a) ∧
      (p.mask.getLsbD l = true → d = 0 → ∃ N : List Cell32, N.length = e ∧ b = { a with q := N ++ a.q.take (16 - e) } ∧
        ∀ (i : Nat) (c : Cell32), N[i]? = some c →
          if act.getLsbD l then c.pend = some { op := op, word := i, bytes := 15 } ∧ c.poison = none
          else c = a.q.getD 0 (Cell32.of 0)) ∧
      (p.mask.getLsbD l = true → 16 ≤ d → act.getLsbD l = false → b = a) ∧
      (p.mask.getLsbD l = true → 16 ≤ d → act.getLsbD l = true → ∃ V : List Cell32, V.length = a.v.length ∧ b = { a with v := V } ∧
        ∀ (j : Nat) (c : Cell32), a.v[j]? = some c → ∃ c' : Cell32, V[j]? = some c' ∧
          if d ≤ 16 + j ∧ 16 + j < d + e then c'.pend = some { op := op, word := 16 + j - d, bytes := 15 } ∧ c'.poison = none
          else c' = c)

/-- The same for a destination that a word may lack. -/
def Expects (x y : Warp) (p : Split) (act : LaneMask) (op : Nat) (dest : Option (Nat × Nat)) : Prop :=
  match dest with
  | some (d, e) => ExpectsLanes x y p act op d e
  | none => y = x

/-- A warp y that is x with E uniform words of operation `op` expected at destination d; with a false guard a push copies k0 and a
named register keeps its value (R100, R103). -/
def ExpectsUni (x y : Warp) (op d e : Nat) (g : Bool) : Prop :=
  (d = 0 → ∃ N : List Cell64, N.length = e ∧ y = { x with k := N ++ x.k.take (16 - e) } ∧
    ∀ (i : Nat) (c : Cell64), N[i]? = some c →
      if g then c.pend = some (op, i) ∧ c.poison = none else c = x.k.getD 0 (Cell64.of 0)) ∧
  (16 ≤ d → g = false → y = x) ∧
  (16 ≤ d → g = true → ∃ (S : List Cell64) (h : Bool), y = { x with s := S, dirty := h } ∧ S.length = x.s.length ∧
    ∀ (j : Nat) (c : Cell64), x.s[j]? = some c → ∃ c' : Cell64, S[j]? = some c' ∧
      if d ≤ 16 + j ∧ 16 + j < d + e then c'.pend = some (op, 16 + j - d) ∧ c'.poison = none else c' = c)

/-- The lowest lane of a mask. -/
def IsLowest (m : LaneMask) (l : Nat) : Prop := l < 64 ∧ m.getLsbD l = true ∧ ∀ k < l, m.getLsbD k = false

/-- A word that accesses the scratchpad address space (R212, R220): where it traps, where it waits, and the operation that it leaves
in flight otherwise. `accs` gives the parts of the accesses that the instruction adds to the addresses. -/
def SramAccess (i : Instr) (f : FmtM) (size : Nat) (codes : List Nat) (dest : Option (Nat × Nat)) (kind : OpKind)
    (accs : Warp → Split → List Acc → List Acc) : Prop :=
  ∀ (s s1 : State) (x : Warp) (p : Split), Opens i s s1 x p →
    let act := x.active p f.g f.neg
    let ea (l : Nat) : Nat := ((x.uval p (16 + f.base.toNat)).toNat + (x.val p (.int 32) f.a.toNat l).toNat) % 2 ^ 32
    MemReadable x p f act codes →
    (act = 0 → ∃ y, Expects x y p act 0 dest ∧ Ends i s s1 (y.advance s.cur.b)) ∧
    (∀ m l, (∀ j < 64, m.getLsbD j = (act.getLsbD j && decide (ea j % size ≠ 0))) → IsLowest m l →
      TakesAt i s s1 (Trap.lanes 0x1C2 (ea l) m)) ∧
    ((∀ j < 64, act.getLsbD j = true → ea j % size = 0) →
      (∀ m l, (∀ j < 64, m.getLsbD j = (act.getLsbD j && decide (s1.window s.cur x (ea j) size = none))) → IsLowest m l →
        (∃ w, ∀ j < 64, act.getLsbD j = true → ∀ z, s1.window s.cur x (ea j) size = some z → z.1 = w) →
        TakesAt i s s1 (Trap.lanes 0x1C1 (ea l) m)) ∧
      ∀ (w : Bool) (place : Nat → Nat), act ≠ 0 →
        (∀ j < 64, act.getLsbD j = true → s1.window s.cur x (ea j) size = some (w, place j)) →
        let path := if w then 2 else 0
        (255 ≤ inFlight x path → exec i s = .next s1) ∧
        (inFlight x path < 255 → ∃ y, Expects x y p act s.serial dest ∧ Issues i s s1 (y.advance s.cur.b)
          { id := s.serial, path := path, kind := kind, word := wordOf i, scope := 1, acq := false, rel := false, done := false
            accs := accs x p (((List.range x.width).filter fun j => act.getLsbD j).map fun j =>
              { lane := j, va := ea j, pa := place j, size := size, key := 8192, type := 0, hs := false, data := [], opnd := 0, cmp := 0, got := none }) }))

/-- The bytes of E words of a lane from source code b on, cut to the size of the access (R221). -/
def dataOf (x : Warp) (p : Split) (b f l : Nat) : List Byte :=
  ((List.range (wordsOf f)).flatMap fun i => toBytes 4 (x.val p (.int 32) (b + i) l).toNat).take (Machine.sizeOf f)

/-- The accesses of a store: of lanes with one address the highest stands (R213). -/
def storing (f : FmtM) (x : Warp) (p : Split) (l : List Acc) : List Acc := storeAccs (fun j => dataOf x p f.b.toNat f.f.toNat j) l

/-- The accesses of an atomic: the operand of each lane, and q0 to compare with (R222). -/
def updating (f : FmtM) (x : Warp) (p : Split) (l : List Acc) : List Acc :=
  l.map fun a => { a with opnd := (x.val p (.int 32) f.b.toNat a.lane).toNat, cmp := (x.val p (.int 32) 0 a.lane).toNat }

/-- The source codes of E words from code b on. -/
def codesFrom (b e : Nat) : List Nat := (List.range e).map fun i => b + i

/-- A destination or data code of a memory word: the queue, or a named register. -/
def Dest (d : BitVec 6) : Prop := d = 0 ∨ 16 ≤ d.toNat

/-- A word on a program ring (R217, R223, R348): where it traps, where it waits, and the operation that it leaves in flight. -/
def RingAccess (i : Instr) (f : FmtM) (codes : List Nat) (dest : Option Nat) (kind : Nat → Nat → OpKind) (peek : Bool)
    (acc : Warp → Split → Nat → Nat × List Byte) : Prop :=
  ∀ (s s1 : State) (x : Warp) (p : Split), Opens i s s1 x p →
    let act := x.active p f.g f.neg
    let e := if f.f = 5 then 2 else if f.f = 6 then 4 else 1
    let ring := (x.uval p (16 + f.base.toNat)).toNat
    let off (l : Nat) : Nat := (x.val p (.int 32) f.a.toNat l).toNat
    let dst := dest.map fun d => (d, e)
    let room := inFlight x 0 < 255 ∧ (x.ops.filter fun o => o.ring.isSome && !o.done).length + x.withdrawn.length < 32
    let used := s1.setCore s.cur.core ((s1.core s.cur.core).usesRings x)
    let there := ring < 32 ∧ (s1.core s.cur.core).ringExists ring = true
    (¬ room → exec i s = .next s1) ∧
    (room → MemReadable x p f act codes →
      (act = 0 → ∃ y, Expects x y p act 0 dst ∧ Ends i s used (y.advance s.cur.b)) ∧
      (act ≠ 0 → ¬ there → TakesAt i s s1 (Trap.of 0x1C4 (ring % 2 ^ 32))) ∧
      (∀ m l, there → peek = true → (∀ j < 64, m.getLsbD j = (act.getLsbD j && decide (4096 < (off j + 1) * e))) → IsLowest m l →
        TakesAt i s s1 (Trap.lanes 0x1C1 (off l) m)) ∧
      (act ≠ 0 → there → (peek = true → ∀ j < 64, act.getLsbD j = true → (off j + 1) * e ≤ 4096) →
        ∃ y, Expects x y p act s.serial dst ∧
          Issues i s used (y.advance s.cur.b)
            { id := s.serial, path := 0, kind := kind ring e, word := wordOf i, scope := 1, acq := false, rel := false, done := false
              accs := ((List.range x.width).filter fun j => act.getLsbD j).map fun j =>
                { lane := j, va := (acc x p j).1, pa := 0, size := 0, key := 8192, type := 0, hs := false, data := indexed (acc x p j).2,
                  opnd := 0, cmp := 0, got := none } }))


/-- A lane word that accesses global memory (R235, R248): where it waits, where it traps, and the operation that it leaves in flight
otherwise. -/
def GlobalAccess (i : Instr) (f : FmtM) (size : Nat) (codes : List Nat) (dest : Option (Nat × Nat)) (k : Kind) (pkg : Bool)
    (kind : OpKind) (scope : Nat) (acq rel : Bool) (accs : Warp → Split → List Acc → List Acc) : Prop :=
  ∀ (s s1 : State) (x : Warp) (p : Split), Opens i s s1 x p →
    let act := x.active p f.g f.neg
    let va (l : Nat) : Nat := ((x.uval p (16 + f.base.toNat)).toNat + ((x.val p (.int 32) f.a.toNat l).signExtend 64).toNat) % 2 ^ 57
    let check (l : Nat) : Except (Nat × Nat) Leaf := s1.access (s1.whoOf s.cur.core x) (s1.tlb s.cur.core) k pkg (va l) size
    (255 ≤ inFlight x 1 → exec i s = .next s1) ∧
    (inFlight x 1 < 255 → MemReadable x p f act codes →
      (act = 0 → ∃ y, Expects x y p act 0 dest ∧ Ends i s s1 (y.advance s.cur.b)) ∧
      (∀ c level m l, (∀ j < 64, m.getLsbD j = true ↔ act.getLsbD j = true ∧ ∃ n, check j = .error (c, n)) → IsLowest m l →
        check l = .error (c, level) →
        (∀ j < 64, act.getLsbD j = true → ∀ e, check j = .error e → e.1 = c ∨ causeRank c < causeRank e.1) →
        TakesAt i s s1 (Trap.lanes c (level + 16 * k.code) m)) ∧
      ∀ leaf : Nat → Leaf, act ≠ 0 → (∀ j < 64, act.getLsbD j = true → check j = .ok (leaf j)) →
        let bare := ((List.range x.width).filter fun j => act.getLsbD j).map fun j => Acc.ofLeaf j (va j) size (leaf j)
        let o : Op := { id := s.serial, path := 1, kind := kind, word := wordOf i, scope := scope, acq := acq, rel := rel, done := false
                        accs := accs x p bare }
        ∃ y, Expects x y p act s.serial dest ∧
          Issues i s (s1.holdAccs s.cur x bare) (y.advance s.cur.b) o)

/-- A uniform word that accesses memory (R252, R380, R383): where it waits, where it traps, and the operation that it leaves in flight
otherwise. -/
def UniformAccess (i : Instr) (f : FmtM) (size : Nat) (codes : List Nat) (dest : Option (Nat × Nat)) (k : Kind) (kind : OpKind)
    (scope : Nat) (part : Warp → Split → Acc → Acc) : Prop :=
  ∀ (s s1 : State) (x : Warp) (p : Split), Opens i s s1 x p →
    let g := x.cguard f.g f.neg
    let va := ((x.uval p (16 + f.base.toNat)).toNat + (x.uval p f.a.toNat).toNat) % 2 ^ 57
    let expects (y : Warp) (op : Nat) : Prop := match dest with
      | some (d, e) => ExpectsUni x y op d e g
      | none => y = x
    (255 ≤ inFlight x 1 → exec i s = .next s1) ∧
    (inFlight x 1 < 255 → UniReadable x p g ((16 + f.base.toNat) :: f.a.toNat :: codes) →
      (g = false → ∃ y, expects y 0 ∧ Ends i s s1 (y.advance s.cur.b)) ∧
      (∀ c level, g = true → s1.uniAccess s.cur x k false va size = .error (c, level) →
        TakesAt i s s1 (Trap.of c (level + 16 * k.code))) ∧
      ∀ a : Acc, g = true → s1.uniAccess s.cur x k false va size = .ok a →
        let o : Op := { id := s.serial, path := 1, kind := kind, word := wordOf i, scope := scope, acq := false, rel := false, done := false
                        accs := [part x p a] }
        ∃ y, expects y s.serial ∧
          Issues i s (s1.holdAccs s.cur x (if a.type = ctrlType then [] else [a])) (y.advance s.cur.b) o)

/-- The instruction ends in the state t, in which the issuing split has written back the uniform result `res` where the guard is true,
and its old value where it is false (R100, R105), and gone on to the next word. -/
def EndsUni (i : Instr) (s t : State) (x : Warp) (p : Split) (nw : Bool) (d : Nat) (g : Bool) (res : DWord) : Prop :=
  ∃ (c : Cell64) (h : Bool),
    (g = true → c = Cell64.of res) ∧
    (g = false → c =
      if nw then (if (p.m.getD 0 LatchM.empty).valid then (p.m.getD 0 LatchM.empty).cell else Cell64.of 0)
      else if d = 0 then x.k.getD 0 (Cell64.of 0) else x.s.getD (d - 16) (Cell64.of 0)) ∧
    Ends i s t ((({ x with
        k := if !nw && d == 0 then c :: x.k.take 15 else x.k
        s := if !nw && d != 0 then x.s.set (d - 16) c else x.s
        dirty := h }).setSplit s.cur.b
      (some { p with m := { valid := true, cell := c } :: p.m.take 3 })).advance s.cur.b)

/-- A warp whose split has pushed two uniform results in turn, v and then h, and gone on to the next word (R100, R105). -/
def pushedTwo (x : Warp) (p : Split) (b : Bool) (v h : Cell64) : Warp :=
  ({ x with k := h :: v :: x.k.take 14 }.setSplit b
    (some { p with m := { valid := true, cell := h } :: { valid := true, cell := v } :: p.m.take 2 })).advance b

/-- The closure words that a SPAWN reads (R197): at width 16 words 16 to 31 come from b. -/
def closureOf (x : Warp) (p : Split) (f : Fmt3) (w : Nat) : Word :=
  if x.width = 16 ∧ 16 ≤ w then x.val p (.int 32) f.b.toNat (w - 16) else x.val p (.int 32) f.a.toNat w

/-- A warp on its slot after an inline call of a task has begun (R182, R196). -/
def CallsInline (x y : Warp) (e : Launch) (words : List Word) : Prop :=
  ∃ z : InlineFrame, y.inline = z :: x.inline ∧ z.lanes = x.lanes ∧ z.k = x.k ∧ z.s = x.s ∧ z.c = x.c ∧ z.a = x.a ∧ z.b = x.b ∧
    z.loops = x.loops ∧ z.fpc = x.fpc ∧ z.task = x.task ∧ y.b = none ∧ y.task.words = words ∧
    y.a = some (Split.start (e.taskEntry ((words.getD 0 0).toNat)) (y.a.elim 0 (·.mask))) ∧ y.loops = List.replicate 3 Loop.off ∧
    y.wg = x.wg ∧ y.launch = x.launch ∧ y.windex = x.windex ∧ y.ops = x.ops

/-- An engine command that has passed its checks (R184, R290): it takes the lowest free entry of the issuing core, pushes its handle,
counts on ENG and is on its way to its queue; without a free entry it takes 0x282. -/
def Commands (i : Instr) (s s1 : State) (x : Warp) (op queue dst src : Nat) (ctl pitch : DWord) (members : List (Nat × Nat)) : Prop :=
  let c := s.cur.core
  let tn := s1.tenantOf x.launch
  let k := s1.core c
  ((∀ n < 2048, (k.fut tn n).st ≠ .free) → TakesAt i s s1 (Trap.of 0x282 0)) ∧
  ∀ e < 2048, (k.fut tn e).st = .free → (∀ n < e, (k.fut tn n).st ≠ .free) →
    let gen := if 4095 ≤ (k.fut tn e).gen then 1 else (k.fut tn e).gen + 1
    ∃ (t : State) (y : Warp) (o : Op) (g : EngOp), exec i s = .next t ∧ t.warp c s.cur.slot = some y ∧
      y.k = Cell64.of (BitVec.ofNat 64 (c * 2 ^ 23 + e * 2 ^ 12 + gen)) :: x.k.take 15 ∧ y.s = x.s ∧ y.c = x.c ∧ y.lanes = x.lanes ∧
      (y.split s.cur.b).map (·.pc) = ((x.advance s.cur.b).split s.cur.b).map (·.pc) ∧
      y.ops = x.ops ++ [o] ∧ o.path = 3 ∧ o.done = false ∧ o.kind = .engine s.serial ∧ y.engs = x.engs ++ [s.serial] ∧
      get t.engOps s.serial = some g ∧ g.op = op ∧ g.queue = queue ∧ g.dst = dst ∧ g.src = src ∧ g.ctl = ctl ∧ g.pitch = pitch ∧
      g.members = members ∧ g.st = .travelling ∧ g.done = 0 ∧ g.launch = x.launch ∧ g.part = tn ∧ g.fut = some (c, e) ∧
      ((t.core c).fut tn e).st = .engine ∧ ((t.core c).fut tn e).gen = gen ∧ ((t.core c).fut tn e).launch = x.launch ∧
      (∀ n, n ≠ e → (t.core c).fut tn n = k.fut tn n) ∧ t.mem = s.mem ∧ t.engQueues = s.engQueues

/-- A run of `width`-bit field at bit `low` of a control word. -/
def ctlField (w : DWord) (width low : Nat) : Nat := w.toNat / 2 ^ low % 2 ^ width

/-- Whether two runs of bytes share an address modulo 2⁵⁷ (R293). -/
def Share (a n b m : Nat) : Prop := ∃ i < n, ∃ j < m, (a + i) % 2 ^ 57 = (b + j) % 2 ^ 57

/-- A matrix word of one warp (R309, R317, R319, R322): a launch that does not own the array waits; the operands' causes come from
`check`; else the operation is appended to the array's queue and stands in the warp's open batch, or is performed at once where the
warp's handler serves a stall. -/
def ArrayWord (i : Instr) (f : Fmt3) (op : Nat) (check : State → Cur → Warp → DWord → DWord → Option Trap) : Prop :=
  ∀ (s s1 : State) (x : Warp) (p : Split), Opens i s s1 x p → s.cur.core < 512 →
    let g := x.cguard f.g f.neg
    let a := x.uval p f.a.toNat
    let b := x.uval p f.b.toNat
    let k := s1.core s.cur.core
    let o : MatOp := { id := s.serial, op := op, word := wordOf i, a := BitVec.ofNat 64 (a.toNat % 2 ^ 32), b := b, c := 0, rows := [],
                       slots := [s.cur.slot], view := s1.viewFor s.cur x (a.toNat % 2 ^ 32), at_ := 0 }
    let y : Warp := x.advance s.cur.b
    let mine := k.matrix.owner = none ∨ k.matrix.owner = some x.launch
    (¬ mine → exec i s = .next (s1.waitsFor s.cur x)) ∧
    (mine → UniReadable x p g [f.a.toNat, f.b.toNat] →
      (g = false → Ends i s (s1.owns s.cur x) y) ∧
      (g = true →
        (∀ t, check s1 s.cur x a b = some t → TakesAt i s s1 t) ∧
        (check s1 s.cur x a b = none →
          (k.serving s.cur.slot x = false → ∃ t : State, exec i s = .next t ∧
            t.warp s.cur.core s.cur.slot = some { y with openOps := y.openOps ++ [s.serial] } ∧
            (t.core s.cur.core).matrix = { k.matrix with owner := some x.launch, queue := k.matrix.queue ++ [o] } ∧
            t.serial = s.serial + 1 ∧ t.mem = s.mem ∧ (t.core s.cur.core).sram = k.sram) ∧
          (k.serving s.cur.slot x = true → (∃ z ∈ x.ops, z.id < s.serial ∧ z.access = true ∧ z.performed = false) → exec i s = .next s1) ∧
          (k.serving s.cur.slot x = true → (∀ z ∈ x.ops, z.id < s.serial → z.access = true → z.performed = true) →
            let t := ((s1.owns s.cur x).fresh).putWarp s.cur { y with openOps := y.openOps ++ [s.serial] }
            exec i s = .next (t.matUnits s.cur.core o 0 ((t.core s.cur.core).matrix.unitsOf o))))))

/-- The causes of a range of n bytes in the scratchpad at a multiple of 128 (R328, R331). -/
def rangeTrap (s : State) (c : Cur) (x : Warp) (a : DWord) (n : Nat) : Option Trap :=
  let ea := a.toNat % 2 ^ 32
  if ea % 128 ≠ 0 then some (Trap.of 0x1C2 ea)
  else if n ≠ 0 ∧ s.window c x ea n = none then some (Trap.of 0x1C1 ea)
  else none

/-- 0x241 with an operand's low half, where a test holds. -/
def badControl (v : DWord) : Trap := Trap.of 0x241 (v.toNat % 2 ^ 32)

/-- A word of the MMA family (R315, R316). A warp alone whose control word and rows pass the checks leaves its operation, with its rows
captured, at the end of the array's queue and in its open batch, and goes on; a member of a gang waits at the latch. -/
def GangWord (i : Instr) (f : Fmt4) (op : Nat) : Prop :=
  ∀ (s s1 : State) (x : Warp) (p : Split), Opens i s s1 x p → s.cur.core < 512 →
    let c := s.cur
    let g := x.cguard f.g f.neg
    let k := s1.core c.core
    let mine := k.matrix.owner = none ∨ k.matrix.owner = some x.launch
    let n := x.gang.toNat / 2 ^ 36 % 8
    let slots := if n = 0 then [c.slot] else (List.range n).map fun j => x.gang.toNat / 2 ^ (6 * j) % 64
    let v (code : BitVec 6) : DWord := if g then x.uval p code.toNat else 0
    let q : Split := { p with wait := .gang s1.serial g op (v f.a) (v f.b) (v f.c), cur := [(p.pc, wordOf i)] }
    let t := (s1.owns c x).putWarp c (x.setSplit c.b (some q))
    let m : Member := { cur := c, index := 0, warp := x.setSplit c.b (some q), split := q, n := s1.serial, g := true, op := op,
                        a := v f.a, b := v f.b, c := v f.c }
    (¬ mine → exec i s = .next (s1.waitsFor c x)) ∧
    (mine → g = false → n = 0 → Ends i s (s1.owns c x) (x.advance c.b)) ∧
    ((g = true ∨ n ≠ 0) → mine → UniReadable x p g [f.a.toNat, f.b.toNat, f.c.toNat] →
      (g = true → k.serving c.slot x = true → TakesAt i s s1 (Trap.of 0x245 0)) ∧
      ((g = false ∨ k.serving c.slot x = false) →
        (∀ w, slots.find? (fun z => !s1.present c.core z) = some w → TakesAt i s s1 (Trap.of 0x244 w)) ∧
        ((∀ w ∈ slots, s1.present c.core w = true) →
          (n ≠ 0 → exec i s = .next t) ∧
          (n = 0 →
            (∀ z, t.gangCauses [m] = some [z] → exec i s = .next (t.take c z (wordOf i))) ∧
            (t.gangCauses [m] = none → Machine.gathered [m] = false → exec i s = .next t) ∧
            (t.gangCauses [m] = none → Machine.gathered [m] = true → ∃ u : State, exec i s = .next u ∧
              u.warp c.core c.slot = some (({ x with openOps := x.openOps ++ [s1.serial] }.setSplit c.b
                (some { q with wait := .none })).advance c.b) ∧
              (u.core c.core).matrix = { k.matrix with
                owner := some x.launch
                queue := k.matrix.queue ++ [{ id := s1.serial, op := op, word := wordOf i, a := v f.a, b := v f.b, c := v f.c
                                              rows := ((List.range x.width).filter fun l => m.lanes.getLsbD l).map (t.captureRow m)
                                              slots := [c.slot], view := ([], 0), at_ := 0 }] } ∧
              u.mem = s.mem ∧ (u.core c.core).sram = k.sram)))))

end Sys2Proof.Claims
end

