-- ==== Sys2Proof/Certificates/Slice0/Obligations.lean ====
section
/-! DEFINITION. The statements for the provers, family by family, over the shapes of Sys2Proof/Safety.lean; a statement of several
parts is put together at the end of the file. `advance`, `jump`, `enabled`, `active`, `val`, `uval` and `take` are the model's
operations, and each has statements of its own. -/

open Sys2Proof Sys2Proof.Machine Sys2Proof.Claims

/-! ### Lane integer instructions (R98, R99, R115 to R117) -/

/-- R115: the two-source lane integer instructions run on every form, with the result of Table 4 in every enabled element, and
change nothing else but what R99 and R105 say. -/
def Sys2Proof.Claims.LaneIntegerPairs : Prop :=
  LaneBin .iadd (fun _ a b => a + b) ∧
  LaneBin .isub (fun _ a b => a - b) ∧
  LaneBin .imul (fun _ a b => a * b) ∧
  LaneBin .imulh (fun w a b => ((a.signExtend (2 * w)) * (b.signExtend (2 * w))).extractLsb' w w) ∧
  LaneBin .imin (fun _ a b => if a.sle b then a else b) ∧
  LaneBin .imax (fun _ a b => if a.sle b then b else a) ∧
  LaneBin .and (fun _ a b => a &&& b) ∧
  LaneBin .or (fun _ a b => a ||| b) ∧
  LaneBin .xor (fun _ a b => a ^^^ b) ∧
  LaneBin .andn (fun _ a b => a &&& ~~~b)

/-- R115, R116, R117: shifts by the whole of b, rotations by b mod w, and the fields of BFX and BFI. -/
def Sys2Proof.Claims.LaneShiftsAndFields : Prop :=
  LaneBin .shl (fun _ a b => a <<< b.toNat) ∧
  LaneBin .shr (fun _ a b => a >>> b.toNat) ∧
  LaneBin .sar (fun _ a b => a.sshiftRight b.toNat) ∧
  LaneBin .rot (fun w a b => a.rotateLeft (b.toNat % w)) ∧
  LaneBin .bfx (fun w a b => (a >>> (b.toNat % w)) &&& onesAt w 0 (bitFieldLen w b)) ∧
  LaneTri .bfi (fun w a b c =>
    (c &&& ~~~(onesAt w (b.toNat % w) (bitFieldLen w b))) |||
      ((a <<< (b.toNat % w)) &&& onesAt w (b.toNat % w) (bitFieldLen w b)))

/-- R115: the one-source and three-source lane integer instructions, the immediates, MOV, MOVI and PGET (R122). -/
def Sys2Proof.Claims.LaneIntegerOthers : Prop :=
  LaneUn .iabs (fun _ a => a.abs) ∧
  LaneUn .popc (fun w a => BitVec.ofNat w ((List.range w).countP fun i => a.getLsbD i)) ∧
  LaneUn .clz (fun _ a => a.clz) ∧
  LaneUn .brev (fun _ a => a.reverse) ∧
  LaneTri .imad (fun _ a b c => a * b + c) ∧
  LaneImm .addi (fun a i => a + i) ∧
  LaneImm .andi (fun a i => a &&& i) ∧
  LaneImm .ori (fun a i => a ||| i) ∧
  LaneImm .xori (fun a i => a ^^^ i) ∧
  LaneImm .shli (fun a i => a <<< i.toNat) ∧
  LaneImm .shri (fun a i => a >>> i.toNat) ∧
  LaneImm .sari (fun a i => a.sshiftRight i.toNat) ∧
  (∀ (f : Fmt3) (s : State) (x : Warp) (p : Split), At s x p →
    LanesReadable x p (x.enabledLanes p f.g f.neg 4) [f.a.toNat] →
    GivesLane (.mov f) s x x p f.nw f.d.toNat (x.enabled p f.g f.neg 4) fun l => x.val p (.int 32) f.a.toNat l) ∧
  (∀ (f : FmtI) (s : State) (x : Warp) (p : Split), At s x p →
    GivesLane (.movi f) s x x p f.nw 0 (x.enabled p f.g f.neg 4) fun _ => f.imm.signExtend 32)


/-! ### Predicates and selects (R109 to R111, R118 to R123) -/

/-- R118: the integer compares write the named predicate in enabled elements, one bit per byte of the element. -/
def Sys2Proof.Claims.LaneIntegerCompares : Prop := LaneCmp .icmpW 4 ∧ LaneCmp .icmpH2 2 ∧ LaneCmp .icmpB4 1

/-- R119: the floating compares, with INVALID for a signalling NaN. -/
def Sys2Proof.Claims.LaneFloatCompares : Prop := LaneFloatCmp .fcmp 4 .f32 F32 ∧ LaneFloatCmp .bcmp2 2 .bf16 BF16

/-- R119: a NaN makes a pair unordered, and ne and ueq hold of it alone; numbers compare by value, so that −0 equals +0. -/
def Sys2Proof.Claims.FloatConditions : Prop :=
  (∀ (cc : Nat) (a b : Machine.Num), cc < 8 → (a.isNan = true ∨ b.isNan = true) → floatCond cc a b = (cc == 1 || cc == 7)) ∧
  (∀ (n1 n2 : Bool) (e1 e2 : Int), floatCond 0 (.fin n1 0 e1) (.fin n2 0 e2) = true ∧ floatCond 2 (.fin n1 0 e1) (.fin n2 0 e2) = false) ∧
  (∀ a b : Machine.Num, a.isNan = false → b.isNan = false →
    floatCond 0 a b = (floatCond 3 a b && floatCond 5 a b) ∧ floatCond 1 a b = !floatCond 0 a b ∧
    floatCond 4 a b = floatCond 2 b a ∧ floatCond 5 a b = !floatCond 2 a b ∧ floatCond 3 a b = !floatCond 4 a b)

/-- R121, R122, R123: predicate logic and moves between predicates and registers. SEL writes one 32-bit element per lane, which
is the model's choice (log entry 21). -/
def Sys2Proof.Claims.LanePredicateLogic : Prop :=
  (∀ (f : FmtP) (s : State) (x : Warp) (p : Split), At s x p →
    GivesPred (.plog f) s x p f.dp.toNat f.x (x.enabled p f.g f.neg 1) fun l i =>
      let a := fieldBit (x.lane l) f.a i
      let b := fieldBit (x.lane l) f.b i
      match f.cc.toNat with
      | 0 => a && b
      | 1 => a || b
      | 2 => a ^^ b
      | 3 => !(a && b)
      | 4 => !(a || b)
      | 5 => a == b
      | _ => a) ∧
  (∀ (f : FmtP) (s : State) (x : Warp) (p : Split), At s x p →
    LanesReadable x p (x.enabledLanes p f.g f.neg 1) [f.a.toNat] →
    GivesPred (.pset f) s x p f.dp.toNat f.x (x.enabled p f.g f.neg 1) fun l i => (x.val p (.int 32) f.a.toNat l).getLsbD i) ∧
  (∀ (f : Fmt3) (s : State) (x : Warp) (p : Split), At s x p →
    GivesLane (.pget f) s x x p f.nw f.d.toNat (x.enabled p f.g f.neg 4) fun l => ((x.lane l).pred (f.a.toNat % 8)).zeroExtend 32) ∧
  (∀ (f : Fmt4) (s : State) (x : Warp) (p : Split), At s x p →
    LanesReadable x p (x.enabledLanes p f.g f.neg 4) [f.a.toNat, f.b.toNat] →
    ∃ r : Nat → Word, GivesLane (.sel f) s x x p f.nw 0 (x.enabled p f.g f.neg 4) r ∧
      ∀ l, ∀ i < 4, part 1 i (r l) =
        if fieldBit (x.lane l) f.c i then part 1 i (x.val p (.int 32) f.a.toNat l) else part 1 i (x.val p (.int 32) f.b.toNat l))

/-! ### Cross-lane instructions (R125 to R133, R313) -/

/-- The lane that each shuffle names for lane l and distance δ. -/
def Sys2Proof.Claims.shuffleLane (k : Shuffle) (l δ : Nat) : Int :=
  match k with
  | .at_ => δ
  | .up => (l : Int) - δ
  | .down => (l : Int) + δ
  | .xor => ((l ^^^ δ : Nat) : Int)

/-- A shuffle (R125): b is read in the active lanes, a in those and in the lanes of the split that they name. -/
def Sys2Proof.Claims.LaneShuffle (mk : Fmt3 → Instr) (k : Shuffle) : Prop :=
  ∀ (f : Fmt3) (s : State) (x : Warp) (p : Split), At s x p →
    let act := x.active p f.g f.neg
    let a (l : Nat) : Word := x.val p (.int 32) f.a.toNat l
    let j (l : Nat) : Int := shuffleLane k l ((x.val p (.int 32) f.b.toNat l).toNat % 64)
    LanesReadable x p act [f.b.toNat] →
    (∀ m : LaneMask, (∀ i < x.width, m.getLsbD i = true →
        act.getLsbD i = true ∨ (p.mask.getLsbD i = true ∧ ∃ l < x.width, act.getLsbD l = true ∧ j l = i)) →
      LanesReadable x p m [f.a.toNat]) →
    GivesLane (mk f) s x x p f.nw f.d.toNat (x.enabled p f.g f.neg 4) fun l =>
      if j l < 0 ∨ (x.width : Int) ≤ j l then a l
      else if p.mask.getLsbD (j l).toNat then a (j l).toNat else 0

/-- R125: the shuffles. -/
def Sys2Proof.Claims.LaneShuffles : Prop :=
  LaneShuffle .shfl .at_ ∧ LaneShuffle .shflup .up ∧ LaneShuffle .shfldn .down ∧ LaneShuffle .shflx .xor

/-- R126, R127: VOTE and MATCH over the active lanes. -/
def Sys2Proof.Claims.VoteAndMatch : Prop :=
  (∀ (f : Fmt3) (s : State) (x : Warp) (p : Split), At s x p →
    let act := x.active p f.g f.neg
    let yes (l : Nat) : Bool := act.getLsbD l && fieldBit (x.lane l) f.a 0
    ∃ r : Word, GivesLane (.vote f) s x x p f.nw f.d.toNat (x.enabled p f.g f.neg 4) (fun _ => r) ∧
      (f.b = 0 → r = if ∃ l < x.width, yes l = true then 1 else 0) ∧
      (f.b = 1 → r = if ∀ l < x.width, act.getLsbD l = true → yes l = true then 1 else 0) ∧
      (f.b = 2 → ∀ i < 32, r.getLsbD i = (decide (i < x.width) && yes i)) ∧
      (f.b = 3 → ∀ i < 32, r.getLsbD i = (decide (i + 32 < x.width) && yes (i + 32)))) ∧
  (∀ (f : Fmt3) (s : State) (x : Warp) (p : Split), At s x p →
    LanesReadable x p (x.enabledLanes p f.g f.neg 4) [f.a.toNat] →
    ∃ r : Nat → Word, GivesLane (.match_ f) s x x p f.nw f.d.toNat (x.enabled p f.g f.neg 4) r ∧
      ∀ l, ∀ i < 32, (r l).getLsbD i =
        ((x.active p f.g f.neg).getLsbD (32 * f.b.toNat + i) &&
          x.val p (.int 32) f.a.toNat (32 * f.b.toNat + i) == x.val p (.int 32) f.a.toNat l))

/-- R132, R133, R313: RDLANE, WRLANE, TAGSET and TAGV. WRLANE checks b for a pending mark where a lane is active, and a where its lane
is (log entry 43). -/
def Sys2Proof.Claims.LaneTransfers : Prop :=
  (∀ (f : Fmt3) (s : State) (x : Warp) (p : Split), At s x p → x.width ≤ 64 →
    let act := x.active p f.g f.neg
    (∀ m : LaneMask, LanesReadable x p m [f.a.toNat] ∧ LanesReadable x p m [f.b.toNat]) →
    (act = 0 → GivesUni (.rdlane f) s x p f.nw f.d.toNat false 0 4) ∧
    ∀ l < x.width, act.getLsbD l = true → (∀ k < l, act.getLsbD k = false) →
      let j := (x.val p (.int 32) f.b.toNat l).toNat % 64
      GivesUni (.rdlane f) s x p f.nw f.d.toNat true
        (if j < x.width ∧ p.mask.getLsbD j = true then (x.val p (.int 32) f.a.toNat j).zeroExtend 64 else 0) 4) ∧
  (∀ (f : Fmt3) (s : State) (x : Warp) (p : Split), At s x p →
    let act := x.active p f.g f.neg
    let j := (x.uval p f.b.toNat).toNat % 64
    UniReadable x p (decide (act ≠ 0)) [f.b.toNat] → UniReadable x p (act.getLsbD j) [f.a.toNat] →
    GivesLane (.wrlane f) s x x p f.nw f.d.toNat
      (fun l => if l = j ∧ (x.active p f.g f.neg).getLsbD l = true then 15 else 0) fun _ => (x.uval p f.a.toNat).truncate 32) ∧
  (∀ (f : Fmt3) (s : State) (x : Warp) (p : Split), At s x p → LanesReadable x p (x.active p f.g f.neg) [f.a.toNat] →
    ∃ (L : List Lane) (h : Bool), Gives (.tagset f) s ({ x with lanes := L, dirty := h }.advance s.cur.b) ∧
      L.length = x.lanes.length ∧ ∀ l a, x.lanes[l]? = some a → L[l]? = some (
        if (x.active p f.g f.neg).getLsbD l then { a with tag := (x.val p (.int 32) f.a.toNat l).truncate 8 } else a)) ∧
  (∀ (f : Fmt3) (s : State) (x : Warp) (p : Split), At s x p →
    GivesLane (.tagv f) s x x p f.nw f.d.toNat (x.enabled p f.g f.neg 4) fun l => (x.lane l).tag.zeroExtend 32)

/-- The values that the places of a warp contribute to a reduction: the source in active lanes, and the identity elsewhere. -/
def Sys2Proof.Claims.contribution (x : Warp) (p : Split) (f : Fmt3) (l : Nat) : Word :=
  if (x.active p f.g f.neg).getLsbD l then x.val p (.int (if f.x then 16 else 32)) f.a.toNat l
  else reduceIdentity (f.b.toNat % 16) f.x

/-- R129, R130: the warp form of REDX and SCAN give every active lane the value of the fixed tree, and the running combination in
ascending lane order. What an enabled half of a lane that is not active receives is free (log entry 31). -/
def Sys2Proof.Claims.ReductionsAndScans : Prop :=
  (∀ (f : Fmt3) (s : State) (x : Warp) (p : Split), At s x p → f.b.getLsbD 5 = false →
    let n := if f.x then 2 else 4
    let act := x.active p f.g f.neg
    let t := combineTree (f.b.toNat % 16) f.x x.width.log2 ((List.range x.width).map (contribution x p f))
    LanesReadable x p (x.enabledLanes p f.g f.neg n) [f.a.toNat] →
    NoTrap x (fun l => if act.getLsbD l then t.2 else 0) →
    ∃ r : Nat → Word, (∀ l, act.getLsbD l = true → r l = t.1) ∧
      GivesLane (.redx f) s x { x with fpc := x.fpc ||| BitVec.ofNat 64 (8 * t.2) } p f.nw f.d.toNat (x.enabled p f.g f.neg n) r) ∧
  (∀ (f : Fmt3) (s : State) (x : Warp) (p : Split), At s x p →
    let n := if f.x then 2 else 4
    let c (a b : Word) : Word := (combine (f.b.toNat % 16) f.x a b).1
    LanesReadable x p (x.enabledLanes p f.g f.neg n) [f.a.toNat] →
    ∃ r : Nat → Word,
      (∀ l < x.width, (x.active p f.g f.neg).getLsbD l = true → r l =
        (((List.range x.width).map (contribution x p f)).take (if f.b.getLsbD 4 then l else l + 1)).foldl c
          (reduceIdentity (f.b.toNat % 16) f.x)) ∧
      GivesLane (.scan f) s x x p f.nw f.d.toNat (x.enabled p f.g f.neg n) r)

/-- R129: the tree of an integer add gives the sum of its places modulo 2³², however the pairs fall: over 2^n places. -/
def Obligations.ReductionTreeAdds : Prop :=
  ∀ (n : Nat) (l : List Word), l.length = 2 ^ n → combineTree 0 false n l = (l.sum, 0)


/-! ### Floating arithmetic (R147 to R160, R170) -/

/-- R157, R158: the rounded instructions of Table 7, each rounding its exact result once. -/
def Sys2Proof.Claims.FloatArithmetic : Prop :=
  FloatBin .fadd 4 .f32 F32 F32.add ∧
  FloatBin .fsub 4 .f32 F32 (fun r g a b => F32.add r g a b.flip) ∧
  FloatBin .fmul 4 .f32 F32 F32.mul ∧
  FloatTri .ffma 4 .f32 F32 ∧
  FloatBin .badd2 2 .bf16 BF16 BF16.add ∧
  FloatBin .bmul2 2 .bf16 BF16 BF16.mul ∧
  FloatTri .bfma2 2 .bf16 BF16 ∧
  FloatBin .hadd2 2 .f16 F16 F16.add ∧
  FloatBin .hmul2 2 .f16 F16 F16.mul ∧
  FloatTri .hfma2 2 .f16 F16

/-- R159, R170: FMIN, FMAX and DOT4. -/
def Sys2Proof.Claims.FloatMinMaxDot : Prop :=
  (∀ (mk : Fmt3 → Instr) (isMax : Bool), (mk = .fmin ∧ isMax = false) ∨ (mk = .fmax ∧ isMax = true) →
    ∀ (f : Fmt3) (s : State) (x : Warp) (p : Split), At s x p →
    LanesReadable x p (x.enabledLanes p f.g f.neg 4) [f.a.toNat, f.b.toNat] →
    GivesFloat (mk f) s x p f.nw f.d.toNat 4 (x.enabled p f.g f.neg 4) .rne fun l _ =>
      F32.minMax isMax (x.val p .f32 f.a.toNat l).toNat (x.val p .f32 f.b.toNat l).toNat) ∧
  (∀ (f : Fmt4) (s : State) (x : Warp) (p : Split), At s x p →
    LanesReadable x p (x.enabledLanes p f.g f.neg 4) [f.a.toNat, f.b.toNat, f.c.toNat] →
    GivesFloat (.dot4 f) s x p f.nw 0 4 (x.enabled p f.g f.neg 4) (modeOf x f.x) fun l e =>
      dot4Of (modeOf x f.x) (drawOf (modeOf x f.x) x (x.enabled p f.g f.neg 4 l) 4 l e)
        (x.val p .e4m3 f.a.toNat l) (x.val p .e4m3 f.b.toNat l) (numOf F32 4 0 (x.val p .f32 f.c.toNat l)))

/-- R160: the special functions run on every F32 source; FRCP and FSQRT round by the mode of x, the others give a value within
the bound of Table 8, which the model leaves free (log entry 14). -/
def Sys2Proof.Claims.SpecialFunctions : Prop :=
  FloatUn .frcp true (fun r g a => F32.recip r g (F32.unpack a.toNat)) ∧
  FloatUn .fsqrt true (fun r g a => F32.sqrt r g (F32.unpack a.toNat)) ∧
  FloatUn .frsq false (fun _ _ a => frsqOf a.toNat) ∧
  FloatUn .fexp2 false (fun _ _ a => fexp2Of a.toNat) ∧
  FloatUn .flog2 false (fun _ _ a => flog2Of a.toNat) ∧
  FloatUn .fsin false (fun _ _ a => fsinOf a.toNat) ∧
  FloatUn .fcos false (fun _ _ a => fcosOf a.toNat) ∧
  FloatUn .ftanh false (fun _ _ a => ftanhOf a.toNat)

/-- R150, R153: NaNs, invalid operations and exact zero sums of the rounded instructions, in each of the three formats. -/
def Sys2Proof.Claims.FloatSpecialValues : Prop :=
  ∀ fmt : FloatFmt, fmt = F32 ∨ fmt = BF16 ∨ fmt = F16 →
    let nan : Nat := if fmt = F32 then 0x7FC00000 else if fmt = BF16 then 0x7FC0 else 0x7E00
    ∀ (r : Rnd) (g : Word) (a b c : Machine.Num),
      (a.isNan = true ∨ b.isNan = true →
        fmt.add r g a b = { bits := nan, flags := if a.isSig = true ∨ b.isSig = true then 16 else 0 } ∧
        fmt.mul r g a b = { bits := nan, flags := if a.isSig = true ∨ b.isSig = true then 16 else 0 }) ∧
      (∀ n, fmt.add r g (.inf n) (.inf !n) = { bits := nan, flags := 16 }) ∧
      (∀ n k e, fmt.mul r g (.inf n) (.fin k 0 e) = { bits := nan, flags := 16 } ∧
        fmt.mul r g (.fin k 0 e) (.inf n) = { bits := nan, flags := 16 } ∧
        fmt.fma r g (.inf n) (.fin k 0 e) c = { bits := nan, flags := 16 }) ∧
      (∀ n m e, 0 < m → fmt.add r g (.fin n m e) (.fin (!n) m e) =
        { bits := if r = .rdn then 2 ^ (fmt.bits - 1) else 0, flags := 0 }) ∧
      (∀ n, fmt.add r g (.inf n) (.fin n 1 0) = { bits := fmt.infPat n, flags := 0 })

/-- The rational value of a finite number. -/
def Sys2Proof.Claims.ratOf : Machine.Num → ℚ
  | .fin n m e => (if n then -1 else 1) * (m : ℚ) * (2 : ℚ) ^ e
  | _ => 0

/-- Whether a pattern is a finite number of a format. -/
def Sys2Proof.Claims.isFin (fmt : FloatFmt) (w : Nat) : Prop := ∃ n m e, fmt.unpack w = .fin n m e

/-- R147: unless it overflows, RNE delivers a finite value that no other value of the format is nearer to, and raises INEXACT exactly
when that value differs from the exact one; a value that the format holds is delivered with no flag in every mode. -/
def Obligations.RoundsToNearest : Prop :=
  ∀ fmt : FloatFmt, fmt = F32 ∨ fmt = BF16 ∨ fmt = F16 →
    ∀ (g : Word) (neg : Bool) (m : Nat) (e : Int), 0 < m →
      (∀ w < 2 ^ fmt.bits, isFin fmt w → ratOf (fmt.unpack w) = ratOf (.fin neg m e) →
        ∀ r, ratOf (fmt.unpack (fmt.round r g false neg m e).bits) = ratOf (.fin neg m e) ∧ (fmt.round r g false neg m e).flags = 0) ∧
      let v := fmt.round .rne g false neg m e
      v.flags.testBit 2 = false →
        isFin fmt v.bits ∧
        (∀ w < 2 ^ fmt.bits, isFin fmt w →
          |ratOf (fmt.unpack v.bits) - ratOf (.fin neg m e)| ≤ |ratOf (fmt.unpack w) - ratOf (.fin neg m e)|) ∧
        (v.flags.testBit 0 = true ↔ ratOf (fmt.unpack v.bits) ≠ ratOf (.fin neg m e))

/-- R152: a finite overflow sets OVERFLOW and INEXACT and delivers what IEEE 754 gives for the mode. -/
def Sys2Proof.Claims.FiniteOverflow : Prop :=
  ∀ fmt : FloatFmt, fmt = F32 ∨ fmt = BF16 ∨ fmt = F16 →
    ∀ (r : Rnd) (g : Word) (neg : Bool) (m : Nat) (e : Int), 0 < m →
      (2 : ℚ) ^ ((fmt.bias : Int) + 1) ≤ m * (2 : ℚ) ^ e →
      fmt.round r g false neg m e =
        { bits := if r = .rtz ∨ r = .odd ∨ (r = .rup ∧ neg = true) ∨ (r = .rdn ∧ neg = false) then fmt.signed neg fmt.top
                  else fmt.infPat neg,
          flags := 5 }

/-- R160, Table 8: what the special functions give for special inputs. -/
def Sys2Proof.Claims.SpecialFunctionCorners : Prop :=
  (∀ r g n, F32.recip r g (.fin n 0 0) = { bits := if n then 0xFF800000 else 0x7F800000, flags := 8 } ∧
    F32.recip r g (.inf n) = { bits := if n then 0x80000000 else 0, flags := 0 } ∧
    F32.sqrt r g (.inf false) = { bits := 0x7F800000, flags := 0 } ∧
    F32.sqrt r g (.fin true 0 0) = { bits := 0x80000000, flags := 0 } ∧
    (∀ m e, 0 < m → F32.sqrt r g (.fin true m e) = { bits := 0x7FC00000, flags := 16 })) ∧
  (frsqOf 0 = { bits := 0x7F800000, flags := 8 } ∧ frsqOf 0x80000000 = { bits := 0xFF800000, flags := 8 } ∧
    frsqOf 0x7F800000 = { bits := 0, flags := 0 } ∧ frsqOf 0xBF800000 = { bits := 0x7FC00000, flags := 16 }) ∧
  (fexp2Of 0xFF800000 = { bits := 0, flags := 0 } ∧ fexp2Of 0x7F800000 = { bits := 0x7F800000, flags := 0 } ∧
    fexp2Of 0x43000000 = { bits := 0x7F800000, flags := 4 } ∧ fexp2Of 0xC3150000 = { bits := 1, flags := 0 }) ∧
  (flog2Of 0 = { bits := 0xFF800000, flags := 8 } ∧ flog2Of 0x41000000 = { bits := 0x40400000, flags := 0 } ∧
    flog2Of 0xBF800000 = { bits := 0x7FC00000, flags := 16 } ∧ flog2Of 0x7F800000 = { bits := 0x7F800000, flags := 0 }) ∧
  (fsinOf 0x7F800000 = { bits := 0x7FC00000, flags := 16 } ∧ fsinOf 0xC0000000 = { bits := 0x80000000, flags := 0 } ∧
    fcosOf 0x7F800000 = { bits := 0x7FC00000, flags := 16 } ∧ fcosOf 0x3FC00000 = { bits := 0, flags := 0 }) ∧
  (ftanhOf 0xFF800000 = { bits := 0xBF800000, flags := 0 } ∧ ftanhOf 0x80000000 = { bits := 0x80000000, flags := 0 }) ∧
  ∀ w, (F32.unpack w).isNan = true →
    ∀ v ∈ [frsqOf w, fexp2Of w, flog2Of w, fsinOf w, fcosOf w, ftanhOf w],
      v = { bits := 0x7FC00000, flags := if (F32.unpack w).isSig then 16 else 0 }


/-! ### Conversions (R161 to R169) -/

/-- R162, R165, R166, R167: CVT, FRND, I2F and F2I. -/
def Sys2Proof.Claims.Conversions : Prop :=
  (∀ (f : FmtV) (s : State) (x : Warp) (p : Split), At s x p →
    GivesConv (.cvt f) f s x p 15 1 (!widens f.sf.toNat f.df.toNat && convMode x f.rm == .sr) fun l =>
      let a := (floatFmt f.sf.toNat).unpack (x.val p (constOf f.sf.toNat) f.a.toNat l).toNat
      if widens f.sf.toNat f.df.toNat then (floatFmt f.df.toNat).convert .rne 0 false a
      else (floatFmt f.df.toNat).convert (convMode x f.rm) (srAfter 1 (x.lane l).sr) f.sat a) ∧
  (∀ (f : FmtV) (s : State) (x : Warp) (p : Split), At s x p → f.sf.toNat < 3 →
    let w := if f.sf.toNat = 0 then 32 else 16
    GivesConv (.frnd f) f s x p 15 (32 / w) (convMode x f.rm == .sr) fun l =>
      let r (k : Nat) : Flo := frndOf (floatFmt f.sf.toNat) (convMode x f.rm) (srAfter (k + 1) (x.lane l).sr)
        ((x.val p (constOf f.sf.toNat) f.a.toNat l).toNat / 2 ^ (w * k) % 2 ^ w)
      if w = 32 then r 0 else { bits := (r 0).bits % 65536 + (r 1).bits % 65536 * 65536, flags := (r 0).flags ||| (r 1).flags }) ∧
  (∀ (f : FmtV) (s : State) (x : Warp) (p : Split), At s x p →
    GivesConv (.i2f f) f s x p 15 1 (convMode x f.rm == .sr) fun l =>
      (floatFmt f.df.toNat).convert (convMode x f.rm) (srAfter 1 (x.lane l).sr) f.sat
        (Num.ofInt (intValue f.sf.toNat (x.val p (constOf f.sf.toNat) f.a.toNat l).toNat))) ∧
  (∀ (f : FmtV) (s : State) (x : Warp) (p : Split), At s x p →
    GivesConv (.f2i f) f s x p 15 1 (convMode x f.rm == .sr) fun l =>
      f2iOf f.df.toNat (convMode x f.rm) (srAfter 1 (x.lane l).sr)
        ((floatFmt f.sf.toNat).unpack (x.val p (constOf f.sf.toNat) f.a.toNat l).toNat))

/-- R163, R164: CVTP packs the elements of a into the half that x names, and CVTU unpacks the part that x names. -/
def Sys2Proof.Claims.PackedConversions : Prop :=
  (∀ (f : FmtV) (s : State) (x : Warp) (p : Split), At s x p →
    let n := 32 / slotBits f.sf.toNat
    GivesConv (.cvtp f) f s x p (if f.x then 12 else 3) n (decide (f.sf.toNat ≤ 7) && convMode x f.rm == .sr) fun l =>
      joinSlots (slotBits f.df.toNat) (if f.x then n else 0) ((List.range n).map fun k =>
        let e := bitsOf (formatBits f.sf.toNat) (slotBits f.sf.toNat * k) (x.val p (constOf f.sf.toNat) f.a.toNat l).toNat
        if f.sf.toNat ≤ 7 then
          (floatFmt f.df.toNat).convert (convMode x f.rm) (srAfter (k + 1) (x.lane l).sr) f.sat ((floatFmt f.sf.toNat).unpack e)
        else { bits := narrowInt f.df.toNat f.sat (intValue f.sf.toNat e), flags := 0 })) ∧
  (∀ (f : FmtV) (s : State) (x : Warp) (p : Split), At s x p →
    let n := 32 / slotBits f.df.toNat
    GivesConv (.cvtu f) f s x p 15 n false fun l =>
      joinSlots (slotBits f.df.toNat) 0 ((List.range n).map fun k =>
        let e := bitsOf (formatBits f.sf.toNat) (slotBits f.sf.toNat * (if f.x then n + k else k))
          (x.val p (constOf f.sf.toNat) f.a.toNat l).toNat
        if f.sf.toNat ≤ 7 then (floatFmt f.df.toNat).convert .rne 0 false ((floatFmt f.sf.toNat).unpack e)
        else { bits := wrap (slotBits f.df.toNat) (intValue f.sf.toNat e), flags := 0 }))

/-- The elements of lane j that a block conversion reads. -/
def Sys2Proof.Claims.blockElems (f : FmtV) (x : Warp) (p : Split) (j : Nat) : List Machine.Num :=
  (List.range (32 / formatBits f.sf.toNat)).map fun k =>
    (floatFmt f.sf.toNat).unpack
      (bitsOf (formatBits f.sf.toNat) (formatBits f.sf.toNat * k) (x.val p (constOf f.sf.toNat) f.a.toNat j).toNat)

/-- The elements of the block that lane l belongs to, those of active lanes only (R168). -/
def Sys2Proof.Claims.blockOf (f : FmtV) (x : Warp) (p : Split) (l : Nat) : List Machine.Num :=
  let b := mxqLanes f.sf.toNat f.x
  (((List.range b).map fun i => l / b * b + i).filter fun j => (x.active p f.g f.neg).getLsbD j).flatMap (blockElems f x p)

/-- The block scale for an element format (R145, R146). -/
def Sys2Proof.Claims.blockScale (f : FmtV) (x : Warp) (p : Split) (ef l : Nat) : Nat :=
  if f.x then vbScale ef (blockOf f x p l) else mxScale ef (blockOf f x p l)

/-- R168, R169: MXQ and MXD run on blocks and on an element with its scale. The element format of the scale form of MXQ is free
among those of its block kind (log entry 23). -/
def Sys2Proof.Claims.BlockConversions : Prop :=
  (∀ (f : FmtV) (s : State) (x : Warp) (p : Split), At s x p → f.df.toNat ≠ 13 → f.df.toNat ≠ 14 →
    GivesConv (.mxq f) f s x p 15 (32 / formatBits f.sf.toNat) (convMode x f.rm == .sr) fun l =>
      joinSlots (slotBits f.df.toNat) 0 ((indexed (blockElems f x p l)).map fun e =>
        quantOf f.x f.df.toNat (blockScale f x p f.df.toNat l) (convMode x f.rm) (srAfter (e.1 + 1) (x.lane l).sr) f.sat e.2)) ∧
  (∀ (f : FmtV) (s : State) (x : Warp) (p : Split), At s x p → f.df.toNat = 13 ∨ f.df.toNat = 14 →
    ∃ ef ∈ (if f.df.toNat = 13 then [3, 4, 5, 6, 7, 8] else [3, 7, 8] : List Nat),
      GivesConv (.mxq f) f s x p 15 (32 / formatBits f.sf.toNat) false fun l =>
        { bits := blockScale f x p ef l, flags := (blockElems f x p l).foldl (fun a v => a ||| sigFlag v) 0 }) ∧
  (∀ (f : FmtV) (s : State) (x : Warp) (p : Split), At s x p →
    GivesConv (.mxd f) f s x p 15 1 (convMode x f.rm == .sr) fun l =>
      let a := (x.val p (.int 32) f.a.toNat l).toNat
      mxdOf f.df.toNat (convMode x f.rm) (srAfter 1 (x.lane l).sr) f.sat
        (blockNum f.x f.sf.toNat (if f.x then a % 2 ^ 20 else a / 256 % 256)
          ((if f.x then a / 2 ^ 20 else a) % 2 ^ formatBits f.sf.toNat)))


/-! ### Uniform instructions (R100, R120, R121, R124, R134 to R139) -/

/-- R134: the uniform integer instructions run on every form, on 64 bits or on 32 with the result sign-extended. -/
def Sys2Proof.Claims.UniformIntegers : Prop :=
  UniBin .uadd (fun _ a b => a + b) ∧ UniBin .usub (fun _ a b => a - b) ∧ UniBin .umul (fun _ a b => a * b) ∧
  UniBin .umulh (fun w a b => ((a.signExtend (2 * w)) * (b.signExtend (2 * w))).extractLsb' w w) ∧
  UniBin .uand (fun _ a b => a &&& b) ∧ UniBin .uor (fun _ a b => a ||| b) ∧ UniBin .uxor (fun _ a b => a ^^^ b) ∧
  UniBin .ushl (fun _ a b => a <<< b.toNat) ∧ UniBin .ushr (fun _ a b => a >>> b.toNat) ∧
  UniBin .usar (fun _ a b => a.sshiftRight b.toNat) ∧
  UniBin .umin (fun _ a b => if a.sle b then a else b) ∧ UniBin .umax (fun _ a b => if a.sle b then b else a) ∧
  UniUn .umov (fun _ a => a) ∧
  UniUn .upopc (fun w a => BitVec.ofNat w ((List.range w).countP fun i => a.getLsbD i)) ∧
  UniUn .uclz (fun _ a => a.clz) ∧
  UniImm .uaddi (fun a i => a + i) ∧ UniImm .uandi (fun a i => a &&& i) ∧
  UniImm .ushli (fun a i => a <<< i.toNat) ∧ UniImm .ushri (fun a i => a >>> i.toNat) ∧
  ∀ (f : Fmt4) (s : State) (x : Warp) (p : Split), At s x p →
    let g := x.cguard f.g f.neg
    UniReadable x p g [f.a.toNat, f.b.toNat, f.c.toNat] →
    GivesUni (.umad f) s x p f.nw 0 g
      (onWide f.x (fun _ a b c => a * b + c) (x.uval p f.a.toNat) (x.uval p f.b.toNat) (x.uval p f.c.toNat)) 4

/-- R36, R120, R121, R124, R135: ULDK with its literals, the uniform compare, predicate logic and select. -/
def Sys2Proof.Claims.UniformOthers : Prop :=
  (∀ (f : Fmt3) (l0 l1 : Word) (s : State) (x : Warp) (p : Split), At s x p →
    GivesUni (.uldk f l0 l1) s x p f.nw f.d.toNat (x.cguard f.g f.neg) (if f.x then l1 ++ l0 else l0.signExtend 64)
      (if f.x then 12 else 8)) ∧
  (∀ (f : FmtP) (s : State) (x : Warp) (p : Split), At s x p → f.dp ≠ 7 →
    let g := x.cguard f.g f.neg
    UniReadable x p g [f.a.toNat, f.b.toNat] →
    GivesC (.ucmp f) s x f.dp.toNat f.x g (intHolds f.cc (x.uval p f.a.toNat) (x.uval p f.b.toNat))) ∧
  (∀ (f : FmtP) (s : State) (x : Warp) (p : Split), At s x p → f.dp ≠ 7 →
    let a := cBit x f.a
    let b := cBit x f.b
    GivesC (.uplog f) s x f.dp.toNat f.x (x.cguard f.g f.neg)
      (match f.cc.toNat with
      | 0 => a && b
      | 1 => a || b
      | 2 => a ^^ b
      | 3 => !(a && b)
      | 4 => !(a || b)
      | 5 => a == b
      | _ => a)) ∧
  (∀ (f : Fmt4) (s : State) (x : Warp) (p : Split), At s x p →
    let g := x.cguard f.g f.neg
    UniReadable x p g [f.a.toNat, f.b.toNat] →
    let v := if cBit x f.c then x.uval p f.a.toNat else x.uval p f.b.toNat
    GivesUni (.usel f) s x p f.nw 0 g (if f.x then (v.truncate 32).signExtend 64 else v) 4)


/-! ### Structured flow, branches and loops (R71 to R76, R83 to R86, R92 to R94) -/

/-- R72, R74: IF, ELSE and ENDIF change the counters of the split's lanes, and IF and ELSE skip to their target when no lane has
counter 0; IF with a counter at its limit raises 0x2C1 with the lowest such lane and changes nothing. -/
def Sys2Proof.Claims.IfElseEndif : Prop :=
  (∀ (f : FmtL) (s : State) (x : Warp) (p : Split), At s x p → ¬ SomeNest x p (254 < ·) →
    ∃ L, Nest x p (fun l n => if 0 < n then n + 1 else if laneCond x f l then 0 else 1) L ∧
      let y : Warp := { x with lanes := L }
      (SomeNest y p (· = 0) → Gives (.if_ f) s (y.advance s.cur.b)) ∧
      (¬ SomeNest y p (· = 0) → Gives (.if_ f) s (y.jump s.cur.b (wordAt p.pc f.imm.toInt)))) ∧
  (∀ (f : FmtL) (s : State) (x : Warp) (p : Split) (l : Nat), At s x p → l < x.width → p.mask.getLsbD l = true →
    254 < (x.lane l).n.toNat → (∀ k < l, p.mask.getLsbD k = true → (x.lane k).n.toNat ≤ 254) →
    Takes (.if_ f) s (Trap.of 0x2C1 l)) ∧
  (∀ (f : FmtL) (s : State) (x : Warp) (p : Split), At s x p →
    ∃ L, Nest x p (fun _ n => if n = 0 then 1 else if n = 1 then 0 else n) L ∧
      let y : Warp := { x with lanes := L }
      (SomeNest y p (· = 0) → Gives (.else_ f) s (y.advance s.cur.b)) ∧
      (¬ SomeNest y p (· = 0) → Gives (.else_ f) s (y.jump s.cur.b (wordAt p.pc f.imm.toInt)))) ∧
  (∀ (f : FmtL) (s : State) (x : Warp) (p : Split), At s x p →
    ∃ L, Nest x p (fun _ n => n - 1) L ∧ Gives (.endif f) s ({ x with lanes := L }.advance s.cur.b))

/-- R72, R75: DO, ENDDO, BRK and CONT. -/
def Sys2Proof.Claims.DoEnddoBrkCont : Prop :=
  (∀ (f : FmtL) (s : State) (x : Warp) (p : Split), At s x p → ¬ SomeNest x p (253 < ·) →
    ∃ L, Nest x p (fun _ n => if 0 < n then n + 2 else 0) L ∧
      let y : Warp := { x with lanes := L }
      (SomeNest y p (· = 0) → Gives (.do_ f) s (y.advance s.cur.b)) ∧
      (¬ SomeNest y p (· = 0) → Gives (.do_ f) s (y.jump s.cur.b (wordAt p.pc f.imm.toInt)))) ∧
  (∀ (f : FmtL) (s : State) (x : Warp) (p : Split), At s x p →
    (SomeNest x p (· ≤ 1) → ∃ L, Nest x p (fun _ n => if n = 1 then 0 else n) L ∧
      Gives (.enddo f) s ({ x with lanes := L }.jump s.cur.b (wordAt p.pc f.imm.toInt))) ∧
    (¬ SomeNest x p (· ≤ 1) → ∃ L, Nest x p (fun _ n => if n = 2 then 0 else n - 2) L ∧
      Gives (.enddo f) s ({ x with lanes := L }.advance s.cur.b))) ∧
  (∀ (f : FmtL) (s : State) (x : Warp) (p : Split), At s x p →
    ∃ L, Nest x p (fun l n => if n = 0 ∧ laneCond x f l = true then f.imm.toNat + 2 else n) L ∧
      Gives (.brk f) s ({ x with lanes := L }.advance s.cur.b)) ∧
  (∀ (f : FmtL) (s : State) (x : Warp) (p : Split), At s x p →
    ∃ L, Nest x p (fun l n => if n = 0 ∧ laneCond x f l = true then f.imm.toNat + 1 else n) L ∧
      Gives (.cont f) s ({ x with lanes := L }.advance s.cur.b))

/-- R83: the branches with an offset. A false guard goes on to the next word, and CALL then still shifts the k queue (R100). -/
def Sys2Proof.Claims.OffsetBranches : Prop :=
  (∀ (f : FmtB) (s : State) (x : Warp) (p : Split), At s x p →
    (x.cguard f.g f.neg = true → Gives (.bra f) s (x.jump s.cur.b (wordAt p.pc f.off.toInt))) ∧
    (x.cguard f.g f.neg = false → Gives (.bra f) s (x.advance s.cur.b))) ∧
  (∀ (f : FmtB) (s : State) (x : Warp) (p : Split), At s x p →
    let link : Cell64 := if x.cguard f.g f.neg then Cell64.of ((p.pc + 4).zeroExtend 64) else x.k.getD 0 (Cell64.of 0)
    let y := { x with k := link :: x.k.take 15 }.setSplit s.cur.b (some { p with m := { valid := true, cell := link } :: p.m.take 3 })
    Gives (.call f) s (if x.cguard f.g f.neg then y.jump s.cur.b (wordAt p.pc f.off.toInt) else y.advance s.cur.b))

/-- R83: the branches to a register target, which raise 0x182 for a target that is not a multiple of 4 and change nothing. -/
def Sys2Proof.Claims.RegisterBranches : Prop :=
  (∀ mk : Fmt3 → Instr, mk = .ret ∨ mk = .bri → ∀ (f : Fmt3) (s : State) (x : Warp) (p : Split), At s x p →
    let g := x.cguard f.g f.neg
    let t : VA := (x.uval p f.a.toNat).truncate 57
    UniReadable x p g [f.a.toNat] →
    (g = false → Gives (mk f) s (x.advance s.cur.b)) ∧
    (g = true → t.toNat % 4 = 0 → Gives (mk f) s (x.jump s.cur.b t)) ∧
    (g = true → t.toNat % 4 ≠ 0 → Takes (mk f) s (Trap.of 0x182 0))) ∧
  (∀ (f : Fmt3) (s : State) (x : Warp) (p : Split), At s x p →
    let g := x.cguard f.g f.neg
    let t : VA := (x.uval p f.a.toNat).truncate 57
    UniReadable x p g [f.a.toNat] →
    (g = true → t.toNat % 4 ≠ 0 → Takes (.calli f) s (Trap.of 0x182 0)) ∧
    (g = false ∨ t.toNat % 4 = 0 →
      let y := x.writeUni s.cur.b p f.nw f.d.toNat g ((p.pc + 4).zeroExtend 64)
      Gives (.calli f) s (if g then y.jump s.cur.b t else y.advance s.cur.b)))

/-- R84: HLOOP. A count of 0 skips the body; otherwise the first inactive level above the highest active one takes the count and the
bounds of the body. With every level active, with a body that ends beyond that of the level outside it, or with more than one
split, it raises 0x2C7, 0x2C8 or 0x2C9 in that order. -/
def Sys2Proof.Claims.CountedLoops : Prop :=
  ∀ (f : FmtI) (s : State) (x : Warp) (p : Split), At s x p →
    let g := x.cguard f.g f.neg
    let n : Word := (x.uval p f.a.toNat).truncate 32
    let stop : VA := p.pc + 4 + BitVec.ofNat 57 (4 * f.imm.toNat)
    let on (j : Nat) : Prop := (x.loops.getD j Loop.off).count ≠ 0
    UniReadable x p g [f.a.toNat] →
    (g = false → Gives (.hloop f) s (x.advance s.cur.b)) ∧
    (g = true → n = 0 → Gives (.hloop f) s (x.advanceBy s.cur.b (4 + 4 * f.imm.toNat))) ∧
    (g = true → n ≠ 0 → on 2 → Takes (.hloop f) s (Trap.of 0x2C7 3)) ∧
    ∀ j < 3, ¬ on j → (∀ k < 3, j < k → ¬ on k) → (j = 0 ∨ on (j - 1)) → g = true → n ≠ 0 →
      (0 < j → (x.loops.getD (j - 1) Loop.off).stop.toNat < stop.toNat → Takes (.hloop f) s (Trap.of 0x2C8 (j - 1))) ∧
      ((j = 0 ∨ stop.toNat ≤ (x.loops.getD (j - 1) Loop.off).stop.toNat) → x.live ≠ 1 →
        Takes (.hloop f) s (Trap.of 0x2C9 (if j = 0 then 0xFFFFFFFF else j - 1))) ∧
      ((j = 0 ∨ stop.toNat ≤ (x.loops.getD (j - 1) Loop.off).stop.toNat) → x.live = 1 →
        Gives (.hloop f) s ({ x with loops := x.loops.set j { count := n, start := p.pc + 4, stop := stop } }.setSplit s.cur.b
          (some { p with pc := p.pc + 4, wait := .none, cur := [] })))

/-- R84, R85: what every word does to the program counter and the loop levels. A word that ends no pass goes to the next word; one
that ends a pass of the innermost level goes back to its start while passes are left; a taken transfer ends the levels whose
bodies leave its target out. -/
def Obligations.ProgramCounter : Prop :=
  ∀ (x : Warp) (b : Bool) (p : Split) (n : Nat), x.split b = some p →
    let pc := p.pc + BitVec.ofNat 57 n
    let lv (j : Nat) : Loop := x.loops.getD j Loop.off
    ((∀ j < 3, (lv j).count = 0 ∨ (lv j).stop ≠ pc) →
      ((x.advanceBy b n).split b).map (·.pc) = some pc ∧ (x.advanceBy b n).loops = x.loops) ∧
    (∀ j < 3, (∀ k < 3, j < k → (lv k).count = 0 ∨ (lv k).stop ≠ pc) → (lv j).stop = pc → 1 < (lv j).count.toNat →
      ((x.advanceBy b n).split b).map (·.pc) = some (lv j).start ∧
      (x.advanceBy b n).loops = x.loops.set j { lv j with count := (lv j).count - 1 }) ∧
    (∀ j < 3, (∀ k < 3, k ≠ j → (lv k).count = 0 ∨ (lv k).stop ≠ pc) → (lv j).stop = pc → (lv j).count = 1 →
      ((x.advanceBy b n).split b).map (·.pc) = some pc ∧ (x.advanceBy b n).loops = x.loops.set j { lv j with count := 0 }) ∧
    ∀ t : VA, ((x.jump b t).split b).map (·.pc) = some t ∧ (x.jump b t).loops.length = x.loops.length ∧
      ∀ j < x.loops.length, (x.jump b t).loops.getD j Loop.off =
        if ∃ k ≤ j, (lv k).count ≠ 0 ∧ ¬ ((lv k).start.toNat ≤ t.toNat ∧ t.toNat < (lv k).stop.toNat) then { lv j with count := 0 }
        else lv j

/-- The word ends with the issuing warp as y where at most four frames stay on chip; else the others are stored in its split area first,
in an order that the spec does not give (R82; log entry 77), and a word that has refilled from the area defines it. -/
def Sys2Proof.Claims.Settles (i : Instr) (s t : State) (y : Warp) (refilled : Bool) : Prop :=
  (refilled = false → y.frames.length ≤ 4 → exec i s = .next (t.putWarp s.cur y)) ∧
  (∀ u z, t.settleArea s.cur y refilled = .done u z → exec i s = .next (u.putWarp s.cur z))

/-- R92, R93: NOP, TRIG, YIELD, and EXIT of some lanes of a split that is in no frame and of the last lanes of a root warp. -/
def Sys2Proof.Claims.NopTrigYieldExit : Prop :=
  (∀ (z : BitVec 24) (s : State) (x : Warp) (p : Split), At s x p → Gives (.nop z) s (x.advance s.cur.b)) ∧
  (∀ (f : FmtL) (s : State) (x : Warp) (p : Split), At s x p →
    let due : List Nat := (x.ops.filter fun (o : Op) => !o.done && o.isWrite).map fun o => o.id
    let mark : Option (List Nat) := if x.task.kind = TaskKind.root ∧ x.trig = none then some due else x.trig
    Gives (.trig f) s ({ x with trig := mark }.advance s.cur.b)) ∧
  (∀ (f : FmtL) (s : State) (x : Warp) (p : Split), At s x p →
    exec (.yield f) s = .next ((s.putWarp s.cur ((cleared s x p).advance s.cur.b)).yielded s.cur)) ∧
  (∀ (f : FmtL) (s : State) (x : Warp) (p : Split), At s x p → x.hasFrame p.frame.toNat = false →
    let left := p.mask &&& ~~~(x.active p f.g f.neg)
    left ≠ 0 → Settles (.exit f) s s ((x.setSplit s.cur.b (some { p with mask := left })).advance s.cur.b) false) ∧
  (∀ (f : FmtL) (s u : State) (x z : Warp) (p : Split), At s x p → x.hasFrame p.frame.toNat = false →
    p.mask &&& ~~~(x.active p f.g f.neg) = 0 → x.split (!s.cur.b) = none → x.spills ≤ x.spillBase →
    x.inline = [] → x.task.kind = .root → s.settleArea s.cur (x.setSplit s.cur.b none) false = .done u z →
    let ended : Warp := { z with a := none, b := none, frames := [], away := [], spills := 0, status := .ended, frozen := none }
    ∃ t : State, exec (.exit f) s = .next t ∧ t.mem = u.mem ∧ t.ctrl = u.ctrl ∧ t.launches = u.launches ∧
      t.warp s.cur.core s.cur.slot = some { ended with task := { x.task with result := 0 } })

/-- R94: GANG gives the gang register the slots of the listed warps, ascending, six bits each, with their number above them; a mask
of 0 clears it; a bad mask raises 0x2CA with the mask. -/
def Sys2Proof.Claims.Gangs : Prop :=
  ∀ (f : Fmt3) (s : State) (x : Warp) (p : Split), At s x p →
    let g := x.cguard f.g f.neg
    let v := (x.uval p f.a.toNat).toNat
    UniReadable x p g [f.a.toNat] →
    (g = false → Gives (.gang f) s (x.advance s.cur.b)) ∧
    (g = true → v = 0 → ∃ h, Gives (.gang f) s ({ x with gang := 0, dirty := h }.advance s.cur.b)) ∧
    (g = true → 2 ^ 16 ≤ v → Takes (.gang f) s (Trap.of 0x2CA (v % 2 ^ 32))) ∧
    ∀ (t : Slot) (wg : Nat) (e : Launch), s.slot s.cur.core s.cur.slot = some t → t.wg = some wg → x.task.kind ≠ .deque →
      s.launch x.launch = some e → g = true → 0 < v → v < 2 ^ 16 →
      let ws := (List.range 16).filter fun i => v.testBit i
      let slotAt (i : Nat) : Nat := ((s.core s.cur.core).slotOf x.launch wg i).getD 0
      (2 ≤ ws.length ∧ ws.length ≤ 6 ∧ v < 2 ^ e.header.wgWarps ∧ v.testBit t.windex = true →
        ∃ h, Gives (.gang f) s ({ x with gang := BitVec.ofNat 64 (ws.length * 2 ^ 36 +
          ((List.range ws.length).map fun k => slotAt (ws.getD k 0) * 2 ^ (6 * k)).sum), dirty := h }.advance s.cur.b)) ∧
      (¬ (2 ≤ ws.length ∧ ws.length ≤ 6 ∧ v < 2 ^ e.header.wgWarps ∧ v.testBit t.windex = true) →
        Takes (.gang f) s (Trap.of 0x2CA (v % 2 ^ 32)))


/-! ### Special registers (R86, R136 to R139, R148, R154) -/

/-- R136, R138: MFS of every special register, and what a compute core's registers read as. -/
def Sys2Proof.Claims.SpecialRegisterReads : Prop :=
  (∀ (f : FmtI) (s : State) (x : Warp) (p : Split), At s x p →
    GivesUni (.mfs f) s x p f.nw 0 (x.cguard f.g f.neg) (s.special s.cur x f.imm.toNat) 4) ∧
  ∀ (s : State) (c : Cur) (x : Warp), c.core < 512 → x.fw = none →
    s.special c x 0x000 = BitVec.ofNat 64 ((if x.task.kind = .root then 2 ^ 12 else 0) + c.slot * 64 + x.windex % 16) ∧
    s.special c x 0x001 = BitVec.ofNat 64 c.core ∧
    s.special c x 0x002 = BitVec.ofNat 64 (c.core % 64 / 4) ∧
    s.special c x 0x003 = BitVec.ofNat 64 (c.core / 64) ∧
    (x.task.kind ≠ .root → ∀ n ∈ [0x010, 0x011, 0x012], s.special c x n = 1#64 <<< 63) ∧
    (∀ i e, x.task.kind = .root → x.wg = some i → s.launch x.launch = some e →
      s.special c x 0x010 = BitVec.ofNat 64 (i % e.nx) ∧ s.special c x 0x011 = BitVec.ofNat 64 (i / e.nx % e.ny) ∧
      s.special c x 0x012 = BitVec.ofNat 64 (i / (e.nx * e.ny))) ∧
    (∀ e, s.launch x.launch = some e → s.special c x 0x013 = BitVec.ofNat 64 e.nx ∧
      s.special c x 0x014 = BitVec.ofNat 64 e.ny ∧ s.special c x 0x015 = BitVec.ofNat 64 e.nz) ∧
    s.special c x 0x016 = BitVec.ofNat 64 x.width ∧
    s.special c x 0x020 = BitVec.ofNat 64 (s.timeOf (c.core / 64)) ∧
    s.special c x 0x021 = x.fpc ∧
    (∀ j < 3, s.special c x (0x030 + j) = ((x.loops.getD j Loop.off).count).zeroExtend 64) ∧
    s.special c x 0x033 = x.splitSp ∧
    s.special c x 0x050 = x.gang ∧
    s.special c x 0x060 = x.tcause ∧ s.special c x 0x061 = x.tpc ∧ s.special c x 0x062 = x.tmask ∧ s.special c x 0x063 = x.tinfo ∧
    s.special c x 0x070 = BitVec.ofNat 64 (s.core c.core).xsteal ∧ s.special c x 0x071 = BitVec.ofNat 64 (s.core c.core).lsteal ∧
    s.special c x 0x072 = BitVec.ofNat 64 (s.die (c.core / 64)).minres

/-- R80, R86, R137, R148, R154: MTS of each register a compute core may write, where it takes effect and where it is refused. -/
def Sys2Proof.Claims.SpecialRegisterWrites : Prop :=
  ∀ (f : FmtI) (s : State) (x : Warp) (p : Split), At s x p →
    let g := x.cguard f.g f.neg
    let v := x.uval p f.a.toNat
    let done (y : Warp) : Prop := ∃ h, Gives (.mts f) s ({ y with dirty := h }.advance s.cur.b)
    UniReadable x p g [f.a.toNat] →
    (g = false → Gives (.mts f) s (x.advance s.cur.b)) ∧
    (g = true → f.imm = 0x021 → v.toNat % 8 ≠ 7 → ∃ L : List Lane, L.length = x.lanes.length ∧
      (∀ (l : Nat) (a : Lane), x.lanes[l]? = some a →
        let seed := (v.toNat / 2 ^ 32 + (l + 1) * 0x9E3779B9) % 2 ^ 32
        L[l]? = some { a with sr := if seed = 0 then 1 else BitVec.ofNat 32 seed }) ∧
      done { x with fpc := v &&& 0xFFFFFFFF00001FFF, lanes := L }) ∧
    (g = true → f.imm = 0x021 → v.toNat % 8 = 7 → Takes (.mts f) s (Trap.of 0x083 0x021)) ∧
    (g = true → f.imm = 0x033 → v.toNat % 16 < 7 → x.frames = [] → x.away = [] → x.spills = 0 →
      done { x with splitSp := v &&& 0x01FFFFFFFFFFC00F }) ∧
    (g = true → f.imm = 0x033 → 7 ≤ v.toNat % 16 → Takes (.mts f) s (Trap.of 0x083 0x033)) ∧
    (g = true → f.imm = 0x060 → done { x with tcause := v &&& 0x3BFF }) ∧
    (g = true → f.imm = 0x061 → done { x with tpc := v &&& 0x01FFFFFFFFFFFFFC }) ∧
    (g = true → f.imm = 0x062 → done { x with tmask := v }) ∧
    (g = true → f.imm = 0x063 → done { x with tinfo := v }) ∧
    (g = true → x.fw = none → (f.imm = 0x070 ∨ f.imm = 0x071 ∨ f.imm = 0x072) → Takes (.mts f) s (Trap.of 0x141 0)) ∧
    ∀ j < 3, g = true → f.imm.toNat = 0x030 + j →
      let n : Word := v.truncate 32
      ((x.loops.getD j Loop.off).count = 0 → done x) ∧
      ((x.loops.getD j Loop.off).count ≠ 0 → ∃ (ls : List Loop) (buf : List (Nat × Word)), ls.length = x.loops.length ∧
        (∀ (k : Nat) (e : Loop), x.loops[k]? = some e → ls[k]? = some (
          if k = j then { e with count := n } else if j < k ∧ n = 0 then { e with count := 0 } else e)) ∧
        done { x with loops := ls, loopBuf := buf })

/-! ### Splits and barriers (R77 to R82, R89 to R91) -/

/-- The target of a lane at BRX: the header's address plus the signed offset, modulo 2⁵⁷ (R78). -/
def Sys2Proof.Claims.laneTarget (s : State) (x : Warp) (p : Split) (f : FmtL) (l : Nat) : VA :=
  BitVec.ofInt 57 (((s.launch x.launch).map (·.kernel)).getD 0 + (x.val p (.int 32) f.a.toNat l).toInt)

/-- R78: BRX. With no active lane it goes to its RCV; with one target and every lane active it branches; otherwise it makes a frame
of the lowest free number and divides the split. -/
def Sys2Proof.Claims.BranchDivergence : Prop :=
  ∀ (f : FmtL) (s : State) (x0 : Warp) (p0 : Split), At s x0 p0 →
    let x := cleared s x0 p0
    let p := p0.clearLatches
    let act := x.active p f.g f.neg
    let t := laneTarget s x p f
    let rcv := wordAt p.pc f.imm.toInt
    let gs := groupLanes x.width act t
    LanesReadable x p act [f.a.toNat] →
    (∀ m, (∀ l < 64, m.getLsbD l = (decide (l < x.width) && act.getLsbD l && decide ((t l).toNat % 4 ≠ 0))) → m ≠ 0 →
      TakesCleared (.brx f) s x0 p0 (Trap.lanes 0x182 0 m)) ∧
    ((∀ l < x.width, act.getLsbD l = true → (t l).toNat % 4 = 0) →
      (gs = [] → Gives (.brx f) s (x.jump s.cur.b rcv)) ∧
      (∀ m u, gs = [(u, m)] → p.mask &&& ~~~act = 0 → Gives (.brx f) s (x.jump s.cur.b u)) ∧
      (∀ n, n < 255 → x.frameUsed n = false → (∀ k < n, x.frameUsed k = true) →
        let frame : Frame := { rcvpc := rcv, expect := p.mask, arrived := p.mask &&& ~~~act, parent := p.frame }
        let new (e : VA × LaneMask) : Split := { Split.start e.1 e.2 with frame := BitVec.ofNat 8 n }
        let y : Warp := { x with frames := put x.frames n frame }
        (∀ m u, gs = [(u, m)] → p.mask &&& ~~~act ≠ 0 →
          Settles (.brx f) s (s.putWarp s.cur x) ((y.setSplit s.cur.b (some (new (u, m)))).jump s.cur.b u) false) ∧
        (∀ e1 e2, gs = [e1, e2] → (∀ e ∈ x.loops, e.count = 0) → x.split (!s.cur.b) = none → x.spills ≤ x.spillRoom →
          Settles (.brx f) s (s.putWarp s.cur x)
            (((y.setSplit s.cur.b (some (new e1))).jump s.cur.b e1.1).setSplit (!s.cur.b) (some (new e2))) false) ∧
        (2 ≤ gs.length → (∃ e ∈ x.loops, e.count ≠ 0) → TakesCleared (.brx f) s x0 p0 (Trap.of 0x2C9 (topLevel x.loops))) ∧
        (2 ≤ gs.length → (∀ e ∈ x.loops, e.count = 0) →
          let onto := if x.split (!s.cur.b) = none then gs.drop 2 else gs.drop 1
          (x.spillRoom < x.spills + onto.length → TakesCleared (.brx f) s x0 p0 (Trap.of 0x2C2 1)) ∧
          (x.spills + onto.length ≤ x.spillRoom → ∀ u z, (s.putWarp s.cur x).pushSplits s.cur x (onto.reverse.map new) = .done u z →
            Settles (.brx f) s u (z.divide s.cur.b p rcv act n gs) false))))

/-- R81, R82: the split area. A warp with at most four frames on chip stores none; storing frames keeps every frame and leaves at most
four on chip, and a frame comes back from its record. A split pushed on the spill stack comes back, as its record holds it. -/
def Sys2Proof.Claims.SplitAreas : Prop :=
  (∀ (s : State) (c : Cur) (x : Warp), x.frames.length ≤ 4 → s.settleArea c x false = .done s x) ∧
  (∀ (s t : State) (c : Cur) (x y : Warp) (refilled : Bool), s.settleArea c x refilled = .done t y →
    y.frames.length ≤ 4 ∧ (∀ n, x.hasFrame n = y.hasFrame n) ∧ y.spills = x.spills ∧ y.a = x.a ∧ y.b = x.b ∧ y.lanes = x.lanes) ∧
  (∀ (s : State) (c : Cur) (x : Warp) (n : Nat), x.away.contains n = false → s.bringFrame c x n = .done s x) ∧
  (∀ (s t : State) (c : Cur) (x y : Warp) (n : Nat), s.bringFrame c x n = .done t y → x.away.contains n = true →
    y.away.contains n = false ∧ ∃ b r, x.recordFrame n b = .ok r ∧ get y.frames n = some r) ∧
  (∀ (x : Warp) (n : Nat) (r : Frame), r.rcvpc.toNat % 4 = 0 → r.expect.toNat < 2 ^ x.width → r.arrived.toNat < 2 ^ x.width →
    (r.parent = 255 ∨ x.hasFrame r.parent.toNat = true) → x.recordFrame n (frameRecord r) = .ok r) ∧
  ∀ (x : Warp) (i : Nat) (p : Split), p.pc.toNat % 4 = 0 → p.mask.toNat < 2 ^ x.width →
    (p.frame = 255 ∨ x.hasFrame p.frame.toNat = true) →
    x.recordSplit i (splitRecord p.pc p.mask p.frame) = .ok { Split.start p.pc p.mask with frame := p.frame }

/-- R79: RCV. It acts as NOP where it meets no frame or a frame of another RCV; otherwise its split ends, and where every expected lane
has arrived the merged split goes on after the RCV. -/
def Sys2Proof.Claims.Reconvergence : Prop :=
  ∀ (f : FmtL) (s : State) (x0 : Warp) (p0 : Split), At s x0 p0 →
    let x := cleared s x0 p0
    let n := p0.frame.toNat
    let brought := x.away.contains n
    ∀ u z, (s.putWarp s.cur x).bringFrame s.cur x n = .done u z →
      (get z.frames n = none → Settles (.rcv f) s u (z.advance s.cur.b) brought) ∧
      ∀ r : Frame, get z.frames n = some r →
        (r.rcvpc ≠ p0.pc → Settles (.rcv f) s u (z.advance s.cur.b) brought) ∧
        (r.rcvpc = p0.pc →
          let met := if r.arrived ||| p0.mask = r.expect then
              ({ z with frames := del z.frames n }.setSplit s.cur.b
                (some { Split.start r.rcvpc r.expect with frame := r.parent })).advance s.cur.b
            else { z with frames := put z.frames n { r with arrived := r.arrived ||| p0.mask } }.setSplit s.cur.b none
          (z.spills ≤ z.spillBase → Settles (.rcv f) s u met brought) ∧
          ∀ v y, u.refillAll s.cur met = .done v y → Settles (.rcv f) s v y (brought || decide (y.spills < met.spills)))

/-- R90, R91: BAR, BARA and BARW of a group that the slot is a member of. An arrival waits for the stores and atomics that the warp
has issued; BAR holds a split until every live split of the warp stands at it; a member that is not armed for BARW, or armed for
BAR or BARA, takes 0x2C6, and a slot that is no member 0x2C4. -/
def Obligations.Barriers : Prop :=
  ∀ (f : FmtL) (s : State) (x0 : Warp) (p0 : Split), At s x0 p0 →
    let x := cleared s x0 p0
    let g := f.imm.toNat
    let due := x.dueWrites
    let arrive (h : Group) : Group := { h with arrived := h.arrived ||| BitVec.ofNat 64 (2 ^ s.cur.slot), due := put h.due s.cur.slot due }
    let wait (o : Option Split) (ph : Nat) : Option Split := o.map fun q => { q with wait := .phase g ph, cur := [(q.pc, barWord g)] }
    let marked (y : Warp) : Warp := { y with dirty := y.dirty || y.frozen.isSome }
    let block (z : Wait) : Split := { p0.clearLatches with wait := z, cur := [(p0.pc, wordOf (.barw f))] }
    let member : Option Group := (s.core s.cur.core).groups.find? fun h => h.launch == x.launch && h.image == g && h.members.getLsbD s.cur.slot
    (member = none → TakesCleared (.bar f) s x0 p0 (Trap.of 0x2C4 g) ∧ Takes (.bara f) s (Trap.of 0x2C4 g) ∧
      TakesCleared (.barw f) s x0 p0 (Trap.of 0x2C4 g)) ∧
    ∀ e : Group, member = some e →
      (∀ ph, get x.armed g = some ph →
        TakesCleared (.bar f) s x0 p0 (Trap.of 0x2C6 g) ∧ Takes (.bara f) s (Trap.of 0x2C6 g) ∧
        (x.live = 1 → e.phase ≤ ph → Gives (.barw f) s (x.setSplit s.cur.b (some (block (.barw g))))) ∧
        (x.live = 1 → ph < e.phase → (∀ r, e.result s.cur.slot ph = some r → r ≠ none) →
          Gives (.barw f) s (((marked { x with armed := del x.armed g }).setSplit s.cur.b
            (some { p0.clearLatches with buf := [], wait := .none })).advance s.cur.b))) ∧
      (get x.armed g = none →
        TakesCleared (.barw f) s x0 p0 (Trap.of 0x2C6 g) ∧
        (x.live ≠ 1 → Takes (.bara f) s (Trap.of 0x2C5 g)) ∧
        (x.live = 1 → exec (.bara f) s =
          .next ((s.updGroup s.cur x.launch g arrive).putWarp s.cur ((marked { x0 with armed := put x.armed g e.phase }).advance s.cur.b))) ∧
        (x.spills ≤ x.spillBase → (∀ q, x.split (!s.cur.b) = some q → q.wait = .bar g) →
          exec (.bar f) s = .next (((s.putWarp s.cur x).updGroup s.cur x.launch g arrive).putWarp s.cur
            (marked { x with a := wait x.a e.phase, b := wait x.b e.phase }))) ∧
        (∀ q, x.split (!s.cur.b) = some q → (∀ h, q.wait ≠ .bar h) →
          Gives (.bar f) s (x.setSplit s.cur.b (some { p0.clearLatches with wait := .bar g, cur := [(p0.pc, wordOf (.bar f))] }))) ∧
        (∀ q h, x.split (!s.cur.b) = some q → q.wait = .bar h → h ≠ g → TakesCleared (.bar f) s x0 p0 (Trap.of 0x2C5 g)))


/-! ### Core SRAM (R212 to R226) -/

/-- R212, R221, R222: LDS, STS and ATS in every size and function. -/
def Sys2Proof.Claims.ScratchpadAccesses : Prop :=
  (∀ f : FmtM, Dest f.b →
    SramAccess (.lds f) f (Machine.sizeOf f.f.toNat) [] (some (f.b.toNat, wordsOf f.f.toNat)) (.load f.f.toNat false) fun _ _ l => l) ∧
  (∀ f : FmtM, SramAccess (.sts f) f (Machine.sizeOf f.f.toNat) (codesFrom f.b.toNat (wordsOf f.f.toNat)) none .store (storing f)) ∧
  ∀ f : FmtM, SramAccess (.ats f) f 4 (if f.f = 7 then [f.b.toNat, 0] else [f.b.toNat]) (some (0, 1)) (.atom f.f.toNat false) (updating f)

/-- R212: the windows of a warp: its workgroup's allocation, and the ring space of the task that it runs. -/
def Sys2Proof.Claims.ScratchpadWindows : Prop :=
  ∀ (s : State) (c : Cur) (x : Warp) (ea n : Nat), 0 < n → ea % n = 0 → ea < 2 ^ 32 →
    (ea < 0x40000000 → x.wg = none → s.window c x ea n = none) ∧
    (∀ a, ea < 0x40000000 → s.allocOf c x = some a → a.len < ea + n → s.window c x ea n = none) ∧
    (∀ a, ea < 0x40000000 → s.allocOf c x = some a → ea + n ≤ a.len → ∀ z, placeIn a.macros (a.base + ea) = some z →
      s.window c x ea n = some (false, z)) ∧
    (0x40000000 ≤ ea → (ea - 0x40000000 < x.task.stageOff ∨ x.task.stageOff + x.task.stageBytes < ea - 0x40000000 + n) →
      s.window c x ea n = none) ∧
    (0x40000000 ≤ ea → x.task.stageOff ≤ ea - 0x40000000 → ea - 0x40000000 + n ≤ x.task.stageOff + x.task.stageBytes →
      ∀ z, (s.core c.core).place 2 (ea - 0x40000000) = some z → s.window c x ea n = some (true, z))

/-- R217, R223: FPUSH, FPOP and FPEEK. -/
def Sys2Proof.Claims.RingWords : Prop :=
  (∀ f : FmtM, RingAccess (.fpush f) f (codesFrom f.b.toNat (wordsOf f.f.toNat)) none OpKind.push false
    fun x p l => (0, dataOf x p f.b.toNat f.f.toNat l)) ∧
  (∀ f : FmtM, Dest f.b → RingAccess (.fpop f) f [] (some f.b.toNat) OpKind.pop false fun _ _ _ => (0, [])) ∧
  ∀ f : FmtM, Dest f.b → RingAccess (.fpeek f) f [] (some f.b.toNat) OpKind.peek true fun x p l => ((x.val p (.int 32) f.a.toNat l).toNat, [])

/-- R28, R224: WAITC passes once no more operations of its path are in flight than its threshold, read in the lowest lane of the split;
until then its split is blocked at it. -/
def Sys2Proof.Claims.CounterWaits : Prop :=
  ∀ (f : FmtL) (s s1 : State) (x : Warp) (p : Split), Opens (.waitc f) s s1 x p →
    ∀ l < x.width, IsLowest p.mask l → LanesReadable x p (BitVec.ofNat 64 (2 ^ l)) [f.a.toNat] →
      (inFlight x f.imm.toNat ≤ (x.val p (.int 32) f.a.toNat l).toNat →
        Ends (.waitc f) s s1 ((x.setSplit s.cur.b (some { p with wait := .none })).advance s.cur.b)) ∧
      ((x.val p (.int 32) f.a.toNat l).toNat < inFlight x f.imm.toNat →
        Ends (.waitc f) s s1 (x.setSplit s.cur.b (some { p with
          wait := .waitc f.imm.toNat (x.val p (.int 32) f.a.toNat l).toNat, cur := [(p.pc, wordOf (.waitc f))] })))

/-- R225, R226: BANKSET goes to the queue controller and its result is pending; BANKQ pushes what its selector names. -/
def Sys2Proof.Claims.BankWords : Prop :=
  (∀ (f : Fmt3) (s s1 : State) (x : Warp) (p : Split), Opens (.bankset f) s s1 x p → s.cur.core < 512 →
    let g := x.cguard f.g f.neg
    let a := (x.uval p f.a.toNat).toNat
    let b := (x.uval p f.b.toNat).toNat
    UniReadable x p g [f.a.toNat, f.b.toNat] → (f.d = 0 ∨ 16 ≤ f.d.toNat) →
    (255 ≤ inFlight x 0 → exec (.bankset f) s = .next s1) ∧
    (inFlight x 0 < 255 →
      (g = false → ∃ y, ExpectsUni x y 0 f.d.toNat 1 false ∧ Ends (.bankset f) s s1 (y.advance s.cur.b)) ∧
      (g = true → (4 ≤ a ∨ 4 ≤ b) → TakesAt (.bankset f) s s1 (Trap.of 0x1C3 (a % 2 ^ 32))) ∧
      (g = true → a < 4 → b < 4 → ∃ y, ExpectsUni x y s.serial f.d.toNat 1 true ∧ Issues (.bankset f) s s1 (y.advance s.cur.b)
        { id := s.serial, path := 0, kind := .bankset a b, word := wordOf (.bankset f), scope := 1, acq := false, rel := false,
          done := false, accs := [] }))) ∧
  (∀ (f : Fmt3) (s : State) (x : Warp) (p : Split), At s x p → s.cur.core < 512 →
    UniReadable x p (x.cguard f.g f.neg) [f.a.toNat] →
    GivesUni (.bankq f) s x p f.nw f.d.toNat (x.cguard f.g f.neg) ((s.core s.cur.core).bankq ((x.uval p f.a.toNat).toNat % 256)) 4) ∧
  ∀ (k : Core), (∀ a < 4, (k.bankq a).toNat % 2 ^ 3 = k.mode a % 2 ^ 3) ∧
    (∀ n < 32, (k.bankq (0x20 + n)).toNat % 2 ^ 13 = (k.ring n).length % 2 ^ 13 ∧ ((k.ring n).length < 2 ^ 13 → (k.bankq (0x20 + n)).getLsbD 13 = k.ringExists n)) ∧
    ∀ a < 256, 4 ≤ a → a ≠ 0x10 → (a < 0x20 ∨ 0x40 ≤ a) → k.bankq a = 0

/-- R225: what the queue controller answers a BANKSET, and what changes. -/
def Sys2Proof.Claims.ModeChanges : Prop :=
  ∀ (s : State) (c launch m mode : Nat), m < 4 → mode < 4 →
    let k := s.core c
    let r := s.doBankset c launch m mode
    let others := ∃ t ∈ k.slots, t.2.launch ≠ launch
    let words := ∃ i < 8, k.ring (8 * m + i) ≠ [] ∨ ∃ w ∈ k.ringWait, w.1 = 8 * m + i
    (others → r = (s, 1)) ∧
    (¬ others → k.mode m = mode → r = (s, 0)) ∧
    (¬ others → k.mode m ≠ mode →
      (k.mode m = 1 → k.allocIn m = true → r = (s, 2)) ∧
      ((k.mode m = 2 ∨ mode = 2) → (k.mode m ≠ 1 ∨ k.allocIn m = false) → k.allots ≠ [] → r = (s, 3)) ∧
      (k.mode m = 3 → (mode ≠ 2 ∨ k.allots = []) → words → r = (s, 4)) ∧
      ((k.mode m ≠ 1 ∨ k.allocIn m = false) → ((k.mode m ≠ 2 ∧ mode ≠ 2) ∨ k.allots = []) → (k.mode m ≠ 3 ∨ ¬ words) →
        r.2 = 0 ∧ (m < k.modes.length → (r.1.core c).mode m = mode) ∧ (∀ j, j ≠ m → (r.1.core c).mode j = k.mode j) ∧
        ((k.mode m = 2 ∨ mode = 2) → (r.1.core c).head = 0 ∧ (r.1.core c).tail = 0) ∧
        (mode = 3 → ∀ i < 8, (r.1.core c).ring (8 * m + i) = []) ∧ r.1.mem = s.mem))


/-! ### Global memory (R235, R248 to R252, R255, R380, R383) -/

/-- R248: LDG, LDGA, STG and STGL, in every size. An LDGA is an acquire, an STGL a release at .sys. -/
def Sys2Proof.Claims.GlobalLoadsAndStores : Prop :=
  ∀ f : FmtM,
    let size := Machine.sizeOf f.f.toNat
    let e := wordsOf f.f.toNat
    (Dest f.b → GlobalAccess (.ldg f) f size [] (some (f.b.toNat, e)) .read false (.load f.f.toNat false) 5 false false fun _ _ l => l) ∧
    (Dest f.b → GlobalAccess (.ldga f) f size [] (some (f.b.toNat, e)) .read false (.load f.f.toNat false) 5 true false fun _ _ l => l) ∧
    GlobalAccess (.stg f) f size (codesFrom f.b.toNat e) none .write false .store 5 false false (storing f) ∧
    GlobalAccess (.stgl f) f size (codesFrom f.b.toNat e) none .write false .store 5 false true (storing f)

/-- R249, R250: ATG and REDG at every scope. An atomic or a reduction at .pkg or .sys is refused a TYPE 1 page. -/
def Sys2Proof.Claims.GlobalAtomics : Prop :=
  ∀ f : FmtM,
    let codes := if f.f = 7 then [f.b.toNat, 0] else [f.b.toNat]
    let atg (i : Instr) (scope : Nat) (pkg : Bool) : Prop :=
      GlobalAccess i f 4 codes (some (0, 1)) .atomic pkg (.atom f.f.toNat false) scope false false (updating f)
    let red (i : Instr) (scope : Nat) (pkg : Bool) : Prop :=
      GlobalAccess i f 4 [f.b.toNat] none .atomic pkg (.red f.f.toNat) scope false false (updating f)
    atg (.atgCore f) 1 false ∧ atg (.atgClus f) 2 false ∧ atg (.atgDie f) 3 false ∧ atg (.atgPkg f) 4 true ∧ atg (.atgSys f) 5 true ∧
    red (.redgDie f) 3 false ∧ red (.redgPkg f) 4 true ∧ red (.redgSys f) 5 true

/-- R235, R255: the causes of one access, in their order. -/
def Obligations.AccessCauses : Prop :=
  ∀ (s : State) (w : Who) (tlb : List (Nat × Nat × Nat × DWord)) (k : Kind) (pkg : Bool) (va n : Nat),
    let r := s.access w tlb k pkg va n
    let writes := k = .write ∨ k = .atomic
    (va % n ≠ 0 → r = .error (0x104, 15)) ∧
    (va % n = 0 →
      (∀ e, s.translate w tlb va = .error e → r = .error e) ∧
      ∀ l : Leaf, s.translate w tlb va = .ok l →
        (s.populated l.pa = false → r = .error (0x103, l.level)) ∧
        (s.populated l.pa = true →
          (s.keyOk w l.pa l.key = false → r = .error (0x146, l.level)) ∧
          (s.keyOk w l.pa l.key = true →
            (k = .read → l.r = false → r = .error (0x142, l.level)) ∧
            (writes → l.w = false → r = .error (0x143, l.level)) ∧
            (writes → l.w = true → inAperture l.pa = true → r = .error (0x150, l.level)) ∧
            (pkg = true → l.type = 1 → (k = .read → l.r = true) → (k = .range → l.r = true ∨ l.w = true) →
              (writes → l.w = true ∧ inAperture l.pa = false) → r = .error (0x145, l.level)) ∧
            ((k = .read → l.r = true) → (k = .range → l.r = true ∨ l.w = true) → (writes → l.w = true ∧ inAperture l.pa = false) →
              (pkg = false ∨ l.type ≠ 1) → r = .ok l))))

/-- R251: PREF completes whatever its lanes name, and changes no register, no memory and no counter. -/
def Sys2Proof.Claims.Prefetches : Prop :=
  ∀ (f : FmtM) (s s1 : State) (x : Warp) (p : Split), Opens (.pref f) s s1 x p → MemReadable x p f (x.active p f.g f.neg) [] →
    ∃ t : State, exec (.pref f) s = .next t ∧ t.warp s.cur.core s.cur.slot = some (x.advance s.cur.b) ∧
      t.mem = s.mem ∧ t.ctrl = s.ctrl ∧ t.launches = s.launches ∧ t.queues = s.queues ∧ t.serial = s.serial ∧
      (∀ c w, (c, w) ≠ (s.cur.core, s.cur.slot) → t.warp c w = s.warp c w) ∧
      ∀ c, (t.core c).sram = (s.core c).sram ∧ (t.core c).rings = (s.core c).rings

/-- R252, R222: LDU, STU and ATU, in every size and function; ATU is performed at .die scope on an 8-byte word, and .cas compares with
k0. -/
def Sys2Proof.Claims.UniformMemoryWords : Prop :=
  ∀ f : FmtM,
    let size := Machine.sizeOf f.f.toNat
    let data (x : Warp) (p : Split) : List Byte :=
      (toBytes 8 (x.uval p f.b.toNat).toNat ++ (if f.f = 6 then toBytes 8 (x.uval p (f.b.toNat + 1)).toNat else [])).take size
    (Dest f.b → UniformAccess (.ldu f) f size [] (some (f.b.toNat, if f.f = 6 then 2 else 1)) .read (.load f.f.toNat true) 5 fun _ _ a => a) ∧
    UniformAccess (.stu f) f size (if f.f = 6 then [f.b.toNat, f.b.toNat + 1] else [f.b.toNat]) none .write .store 5
      (fun x p a => { a with data := indexed (data x p) }) ∧
    UniformAccess (.atu f) f 8 (if f.f = 7 then [f.b.toNat, 0] else [f.b.toNat]) (some (0, 1)) .atomic (.atom f.f.toNat true) 3
      (fun x p a => { a with opnd := (x.uval p f.b.toNat).toNat, data := indexed (toBytes 8 (x.uval p 0).toNat) })

/-- R380, R383: what a uniform access of a firmware core checks. At level 0 or 1 an address with ones in [56:52] reaches control
space untranslated; at level 2 an access outside the guards of its kind takes 0x142 or 0x143. -/
def Sys2Proof.Claims.FirmwareAccesses : Prop :=
  ∀ (s : State) (c : Cur) (x : Warp) (w : Fw) (k : Kind) (va n : Nat), x.fw = some w → va < 2 ^ 57 →
    let r := s.uniAccess c x k false va n
    let code := if k = .write ∨ k = .atomic then 0x143 else 0x142
    (w.level < 2 → va / 2 ^ 52 = 31 →
      (va / 2 ^ 35 % 2 ^ 17 = 0 → (n ≠ 8 ∨ va % 8 ≠ 0) → ∃ l, r = .error (0x104, l)) ∧
      (va / 2 ^ 35 % 2 ^ 17 ≠ 0 → n = 8 → va % 8 = 0 → ∃ l, r = .error (0x103, l)) ∧
      (w.level = 1 → va / 2 ^ 35 % 2 ^ 17 = 0 → n = 8 → va % 8 = 0 → k ≠ .read → (ctrlReg va).monitorOnly = true → ∃ l, r = .error (0x141, l)) ∧
      (w.level = 0 → va / 2 ^ 35 % 2 ^ 17 = 0 → n = 8 → va % 8 = 0 → ∃ a, r = .ok a ∧ a.va = va ∧ a.type = ctrlType)) ∧
    (w.level = 2 → x.guarded (if k = .write ∨ k = .atomic then 1 else 0) va n = false →
      (∀ l, s.access (s.whoOf c.core x) (s.tlb c.core) k false va n = .ok l → r = .error (code, 15)) ∧
      ∀ e, s.access (s.whoOf c.core x) (s.tlb c.core) k false va n = .error e →
        r = .error (if causeRank code < causeRank e.1 then (code, 15) else e)) ∧
    ((w.level = 2 ∧ x.guarded (if k = .write ∨ k = .atomic then 1 else 0) va n = true ∨ w.level < 2 ∧ va / 2 ^ 52 ≠ 31) →
      (∀ l, s.access (s.whoOf c.core x) (s.tlb c.core) k false va n = .ok l → r = .ok (Acc.ofLeaf 0 va n l)) ∧
      ∀ e, s.access (s.whoOf c.core x) (s.tlb c.core) k false va n = .error e → r = .error e)


/-! ### Tasks (R182 to R205) -/

/-- R179, R181, R184, R186, R196, R197: SPAWN and SPAWNT. -/
def Obligations.Spawns : Prop :=
  ∀ (f : Fmt3) (i : Instr) (tiles : Bool), (i = .spawn f ∧ tiles = false ∨ i = .spawnt f ∧ tiles = true) →
  ∀ (s s1 : State) (x : Warp) (p : Split), Opens i s s1 x p →
    let C := (List.range 32).map (closureOf x p f)
    let c := s.cur.core
    let tn := s1.tenantOf x.launch
    let k := s1.core c
    let ntasks := ((s1.launch x.launch).map (·.header.tasks.length)).getD 0
    let c0 := (C.getD 0 0).toNat
    let c1 := (C.getD 1 0).toNat
    let active := x.active p f.g f.neg ≠ 0
    let good := c0 < ntasks ∧ c0 < 2 ^ 12 ∧ c1 < 2 ^ 10 ∧ c1 / 8 % 32 = 0 ∧ c1 % 8 ≤ 4 ∧ (tiles = false → c1 % 8 = 0)
    LanesReadable x p 0xFFFFFFFF (if x.width = 16 then [f.a.toNat, f.b.toNat] else [f.a.toNat]) →
    (¬ active → Ends i s s1 (pushedTwo x p s.cur.b (x.k.getD 0 (Cell64.of 0)) (x.k.getD 0 (Cell64.of 0)))) ∧
    (active → (ntasks ≤ c0 ∨ 2 ^ 12 ≤ c0) → TakesAt i s s1 (Trap.of 0x201 0)) ∧
    (active → c0 < ntasks → c0 < 2 ^ 12 → ¬ good → TakesAt i s s1 (Trap.of 0x202 1)) ∧
    (active → good → ∀ w, tileCause C = some w → TakesAt i s s1 (Trap.of 0x203 w)) ∧
    (active → good → tileCause C = none →
      (∀ e, s1.stages s.cur x C = false → (k.closures tn).length < 256 → e < 2048 → (k.fut tn e).st = .free → (∀ n < e, (k.fut tn n).st ≠ .free) →
        let gen := if 4095 ≤ (k.fut tn e).gen then 1 else (k.fut tn e).gen + 1
        ∃ t : State, exec i s = .next t ∧
          t.warp c s.cur.slot = some (pushedTwo { x with staging := none, asks := false } p s.cur.b (Cell64.of 0) (Cell64.of (BitVec.ofNat 64 (c * 2 ^ 23 + e * 2 ^ 12 + gen)))) ∧
          (∃ q : Closure, (t.core c).dequeOf tn = k.dequeOf tn ++ [q] ∧ q.words = C ∧ q.launch = x.launch ∧ q.core = c ∧ q.entry = e ∧
            q.gen = gen ∧ q.held = none ∧ q.allot = none ∧ q.due = x.dueWrites ∧ q.cancelled = false) ∧
          ((t.core c).fut tn e).st = .queued ∧ ((t.core c).fut tn e).gen = gen ∧ ((t.core c).fut tn e).launch = x.launch ∧
          ((t.core c).fut tn e).place = c ∧ (∀ n, n ≠ e → (t.core c).fut tn n = k.fut tn n) ∧ t.mem = s.mem) ∧
      ((s1.stages s.cur x C = true ∨ 256 ≤ (k.closures tn).length ∨ ∀ n < 2048, (k.fut tn n).st ≠ .free) →
        (k.capacity 2 < stagedTotal C → TakesAt i s s1 (Trap.of 0x209 (stagedTotal C / 128))) ∧
        (stagedTotal C ≤ k.capacity 2 → 8 ≤ x.inline.length → TakesAt i s s1 (Trap.of 0x20A 8)) ∧
        (stagedTotal C ≤ k.capacity 2 → x.inline.length < 8 → x.live ≠ 1 → TakesAt i s s1 (Trap.of 0x20B 0)) ∧
        (stagedTotal C ≤ k.capacity 2 → x.inline.length < 8 → x.live = 1 → c1 % 8 = 0 → x.dueWrites = [] →
          ∀ e, s1.launch x.launch = some e → ∃ y, Ends i s (s1.keepStaging s.cur x C).1 y ∧ CallsInline x y e C ∧ y.task.kind = .inlineSpawn)))

/-- R183, R198: the checks of a handle, in their order; every core is outside a firmware core's partition, as it has none (the model's
inference: log entry 32). -/
def Sys2Proof.Claims.HandleChecks : Prop :=
  ∀ (s : State) (x : Warp) (h : DWord) (launch own : Bool),
    let r := s.named x h launch own
    let lo := h.toNat % 2 ^ 32
    let core := lo / 2 ^ 23
    let entry := lo / 2 ^ 12 % 2 ^ 11
    let gen := lo % 2 ^ 12
    let u := (s.core core).fut (s.tenantOf x.launch) entry
    let bad (c : Nat) : Prop := r = .error (Trap.of c lo)
    (2 ^ 33 ≤ h.toNat → bad 0x204) ∧
    (h.toNat < 2 ^ 33 → 2 ^ 32 < h.toNat → bad 0x204) ∧
    (h.toNat = 2 ^ 32 → r = .ok .inline) ∧
    (h.toNat < 2 ^ 32 →
      ((gen = 0 ∨ x.fw ≠ none ∨ s.partOf core ≠ some (s.tenantOf x.launch)) → bad 0x204) ∧
      (gen ≠ 0 → x.fw = none → s.partOf core = some (s.tenantOf x.launch) →
        ((u.st = .free ∨ u.gen ≠ gen) → bad 0x205) ∧
        (u.st ≠ .free → u.gen = gen →
          (launch = true → u.launch ≠ x.launch → bad 0x204) ∧
          ((launch = false ∨ u.launch = x.launch) → own = true → h = x.tself → bad 0x206) ∧
          ((launch = false ∨ u.launch = x.launch) → (own = false ∨ h ≠ x.tself) → r = .ok (.entry core entry u)))))

/-- R28, R195, R196, R198: JOIN. -/
def Sys2Proof.Claims.Joins : Prop :=
  ∀ (f : Fmt3) (s s1 : State) (x : Warp) (p : Split), Opens (.join f) s s1 x p →
    let i : Instr := .join f
    let c := s.cur.core
    let tn := s1.tenantOf x.launch
    let g := x.cguard f.g f.neg
    let h := x.uval p f.a.toNat
    let q : Split := { p with buf := [], wait := .none }
    let mine (core e : Nat) (z : Closure) : Bool := z.isFor core e && (z.held.isNone || z.held == some s.cur.slot)
    UniReadable x p g [f.a.toNat, f.b.toNat] →
    (g = false → EndsUni i s s1 x p f.nw f.d.toNat false 0) ∧
    (∀ t, g = true → s1.named x h true true = .error t → TakesAt i s s1 t) ∧
    (g = true → s1.named x h true true = .ok .inline → EndsUni i s s1 x q f.nw f.d.toNat true (x.uval p f.b.toNat)) ∧
    ∀ core e u, g = true → s1.named x h true true = .ok (.entry core e u) →
      let final := u.st = .resolved ∨ u.st = .cancelled ∨ u.st = .failed
      let first := s1.joinBefore h (s1.serial + 1) = false
      let seen := covers (s1.die (c / 64)).clock u.stamped = true
      (final → u.st ≠ .failed → first → seen →
        EndsUni i s (s1.updFut tn core e fun v => { v with st := .free }) { x with asks := false } q f.nw f.d.toNat true u.value) ∧
      (u.st = .failed → first → seen → TakesAt i s s1 (Trap.of u.cause u.info)) ∧
      ((¬ final → core ≠ c ∨ ∀ z ∈ (s1.core c).dequeOf tn, mine core e z = false) → (¬ final ∨ ¬ first ∨ ¬ seen) →
        Ends i s s1.fresh ({ x with asks := x.asks && u.pending }.setSplit s.cur.b
          (some { p with wait := .join f h s1.serial, cur := [(p.pc, wordOf i)] }))) ∧
      ∀ z l, ¬ final → core = c → ((s1.core c).dequeOf tn).find? (mine core e) = some z → s1.launch x.launch = some l →
        (8 ≤ x.inline.length → stagedTotal z.words ≤ (s1.core c).capacity 2 → TakesAt i s s1 (Trap.of 0x20A 8)) ∧
        (x.inline.length < 8 → x.live = 1 → tileCount z.words = 0 → z.due = [] → ∃ (t : State) (y : Warp), Ends i s t y ∧
          CallsInline x y l z.words ∧ y.task.kind = .inlineJoin ∧
          (∀ v, v ∈ (t.core c).dequeOf tn ↔ v ∈ (s1.core c).dequeOf tn ∧ v.isFor z.core z.entry = false) ∧
          ((t.core c).fut tn e).st = .running)

/-- R199, R200: FTEST and FCANCEL. The cause that FTEST shows of a failure without an underlying cause is that of the failure itself
(log entry 46). -/
def Sys2Proof.Claims.FutureTests : Prop :=
  (∀ (f : Fmt3) (s s1 : State) (x : Warp) (p : Split), Opens (.ftest f) s s1 x p →
    let i : Instr := .ftest f
    let g := x.cguard f.g f.neg
    let q : Split := { p with buf := [] }
    UniReadable x p g [f.a.toNat] →
    (g = false → EndsUni i s s1 x p f.nw f.d.toNat false 0) ∧
    (∀ t, g = true → s1.named x (x.uval p f.a.toNat) false false = .error t → TakesAt i s s1 t) ∧
    (g = true → s1.named x (x.uval p f.a.toNat) false false = .ok .inline → EndsUni i s s1 x q f.nw f.d.toNat true 3) ∧
    ∀ core e u, g = true → s1.named x (x.uval p f.a.toNat) false false = .ok (.entry core e u) →
      let at_ (n : Nat) : DWord := BitVec.ofNat 64 (u.place * 2 ^ 23 + n)
      let done (v : DWord) : Prop := covers (s1.die (s.cur.core / 64)).clock u.stamped = true → EndsUni i s s1 x q f.nw f.d.toNat true v
      (u.st = .queued → EndsUni i s s1 x p f.nw f.d.toNat true (at_ 0)) ∧
      (u.st = .staging → EndsUni i s s1 x p f.nw f.d.toNat true (at_ 1)) ∧
      ((u.st = .runnable ∨ u.st = .running ∨ u.st = .draining) → EndsUni i s s1 x p f.nw f.d.toNat true (at_ 2)) ∧
      (u.st = .engine → EndsUni i s s1 x p f.nw f.d.toNat true 6) ∧
      (u.st = .resolved → done 3) ∧ (u.st = .cancelled → done 4) ∧
      (u.st = .failed → u.cause ≠ 0x207 → u.cause ≠ 0x208 → done (BitVec.ofNat 64 (u.cause * 2 ^ 32 + 5))) ∧
      (u.st = .failed → (u.cause = 0x207 ∨ u.cause = 0x208) → done (BitVec.ofNat 64 (u.info % 1024 * 2 ^ 32 + 5)))) ∧
  ∀ (f : Fmt3) (s s1 : State) (x : Warp) (p : Split), Opens (.fcancel f) s s1 x p →
    let i : Instr := .fcancel f
    let g := x.cguard f.g f.neg
    let tn := s1.tenantOf x.launch
    UniReadable x p g [f.a.toNat] →
    (g = false → EndsUni i s s1 x p f.nw f.d.toNat false 0) ∧
    (∀ t, g = true → s1.named x (x.uval p f.a.toNat) true false = .error t → TakesAt i s s1 t) ∧
    (g = true → s1.named x (x.uval p f.a.toNat) true false = .ok .inline → EndsUni i s s1 x p f.nw f.d.toNat true 2) ∧
    ∀ core e u, g = true → s1.named x (x.uval p f.a.toNat) true false = .ok (.entry core e u) →
      ((u.st = .queued ∨ u.st = .staging) → ∃ t : State, EndsUni i s t x p f.nw f.d.toNat true 0 ∧
        ((t.core core).fut tn e).st = .cancelled ∧ ((t.core core).fut tn e).value = 0 ∧ t.mem = s.mem ∧
        (∀ v ∈ (t.core u.place).dequeOf tn, v.isFor core e = false)) ∧
      (u.st = .engine → ∃ t : State, EndsUni i s t x p f.nw f.d.toNat true 1 ∧ t.mem = s.mem ∧
        ∀ n o, get s.engOps n = some o → o.part = tn → o.fut = some (core, e) → ∃ o', get t.engOps n = some o' ∧ o'.cancel = true) ∧
      ((u.st = .runnable ∨ u.st = .running ∨ u.st = .draining) → EndsUni i s s1 x p f.nw f.d.toNat true 2) ∧
      ((u.st = .resolved ∨ u.st = .cancelled ∨ u.st = .failed) →
        EndsUni i s (s1.updFut tn core e fun v => { v with st := .free }) x p f.nw f.d.toNat true 3)

/-- The checks of a U3 word with a destination, whose b and x are fixed at 0, and a too where `fixed` (R38, R42, R53, R54). -/
def Sys2Proof.Claims.ChecksUni (mk : Fmt3 → Instr) (fixed : Bool) : Prop :=
  ∀ (e : Env) (f : Fmt3),
    let a := f.a.toNat
    let d := f.d.toNat
    let named (c : Nat) : Prop := c < 16 ∨ 48 ≤ c ∨ c - 16 < e.ns ∨ (e.handler = true ∧ 40 ≤ c)
    decodeFault e (mk f) =
      if f.x = true then some (0x042, 0)
      else if (f.nw = true ∧ d ≠ 0) ∨ (d ≠ 0 ∧ (d < 16 ∨ 48 ≤ d)) then some (0x042, 1)
      else if f.b ≠ 0 then some (0x042, 7)
      else if (fixed = true ∧ f.a ≠ 0) ∨ 56 ≤ a then some (0x042, 13)
      else if f.g = 7 ∧ f.neg = true then some (0x042, 19)
      else if ¬ named d then some (0x043, 1)
      else if ¬ named a then some (0x043, 13)
      else none

/-- R201: TEXIT. -/
def Obligations.TaskExits : Prop :=
  (∀ (f : Fmt3) (s s1 : State) (x : Warp) (p : Split), Opens (.texit f) s s1 x p →
    UniReadable x p (x.cguard f.g f.neg) [f.a.toNat] →
    (x.cguard f.g f.neg = false → Ends (.texit f) s s1 (x.advance s.cur.b)) ∧
    (x.cguard f.g f.neg = true → x.inline = [] → x.task.kind = .root → ∃ t y, exec (.texit f) s = .next t ∧
      t.warp s.cur.core s.cur.slot = some y ∧ y.status = .ended ∧ y.a = none ∧ y.b = none ∧ y.frozen = none ∧ t.mem = s.mem) ∧
    (∀ q : Task, x.cguard f.g f.neg = true → x.inline = [] → x.task = q → q.kind = .deque → ∃ t y, exec (.texit f) s = .next t ∧
      t.warp s.cur.core s.cur.slot = some y ∧ y.status = .ended ∧ y.a = none ∧ y.b = none ∧ y.task.result = x.uval p f.a.toNat ∧
      ((t.core (q.handle.toNat / 2 ^ 23 % 512)).fut (s1.tenantOf x.launch) (q.handle.toNat / 2 ^ 12 % 2048)).st = .draining) ∧
    (∀ z r, x.cguard f.g f.neg = true → x.inline = z :: r → tilesWhere x.task.words tileOut = [] → z.entry = none → x.task.allot = none →
      ∀ q, (x.popInline z r).split z.inB = some q →
        Ends (.texit f) s s1 (pushedTwo (x.popInline z r) q z.inB (Cell64.of (x.uval p f.a.toNat)) (Cell64.of (2 ^ 32)))))

/-- R202, R203: DQLEN and TSELF on a compute core: their words and the fields these fix, and what they push. -/
def Obligations.TaskQueries : Prop :=
  decodeHead 0xB4700000 = some (.dqlen { nw := false, g := 7, neg := false, a := 0, b := 0, d := 0, x := false }) ∧
  decodeHead 0xB5700000 = some (.tself { nw := false, g := 7, neg := false, a := 0, b := 0, d := 0, x := false }) ∧
  ChecksUni .dqlen true ∧ ChecksUni .tself true ∧
  (∀ (f : Fmt3) (s : State) (x : Warp) (p : Split), At s x p → s.cur.core < 512 →
    let k := s.core s.cur.core
    let t := s.tenantOf x.launch
    GivesUni (.dqlen f) s x p f.nw f.d.toNat (x.cguard f.g f.neg)
      (BitVec.ofNat 64 ((2048 - ((k.tableOf t).filter fun e => e.2.st != .free).length) * 2 ^ 32 + (k.closures t).length * 2 ^ 16 +
        ((k.closures t).filter fun z => z.launch == x.launch).length)) 4) ∧
  ∀ (f : Fmt3) (s : State) (x : Warp) (p : Split), At s x p → s.cur.core < 512 →
    GivesUni (.tself f) s x p f.nw f.d.toNat (x.cguard f.g f.neg)
      (if x.task.kind = .root then 0 else if x.task.kind = .inlineSpawn then 2 ^ 32 else x.task.handle) 4


/-! ### Ordering and code (R253, R267, R269, R277 to R283) -/

/-- R253: RWB, RINV and RWBI. The operands and the pages are checked once, before anything is reached; a range of no bytes ends the word.
Then the split is held at the word while the warp has an earlier write that is not performed, and each line of a TYPE 1 page is
reached in turn: written back, dropped or both. The last line ends the word, once what a write-back has written is applied. -/
def Obligations.RangeWords : Prop :=
  ∀ (f : Fmt3) (i : Instr) (wb inv : Bool),
    (i = .rwb f ∧ wb = true ∧ inv = false ∨ i = .rinv f ∧ wb = false ∧ inv = true ∨ i = .rwbi f ∧ wb = true ∧ inv = true) →
  ∀ (s s1 : State) (x : Warp) (p : Split), Opens i s s1 x p →
    let g := x.cguard f.g f.neg
    let a := (x.uval p f.a.toNat).toNat % 2 ^ 57
    let n := (x.uval p f.b.toNat).toNat
    let w := s1.whoOf s.cur.core x
    let check (va : Nat) : Except (Nat × Nat) Leaf := s1.access w (s1.tlb s.cur.core) .range false va 1
    let go (y : Warp) : Warp := (y.setSplit s.cur.b (some { p with wait := .none })).advance s.cur.b
    let goesOn (first : Nat) (runs : List (Nat × Nat)) (pos : Nat) : Prop :=
      let held (y : Warp) (k : Nat) : Warp := y.setSplit s.cur.b (some { p with wait := .lines first runs k, cur := [(p.pc, wordOf i)] })
      let owes := ∃ o ∈ x.ops, o.id < first ∧ o.performed = false ∧ o.path = 1 ∧ o.isWrite = true
      (owes → Ends i s s1 (held x pos)) ∧
      (¬ owes → lineAt runs pos = none → Ends i s s1 (if wb = true ∧ s1.applied x.stamped = false then held x pos else go x)) ∧
      ∀ l, ¬ owes → lineAt runs pos = some l →
        (wb = true → (s1.writeBack w l).owesBack w l = true → Ends i s s1 (held x pos)) ∧
        ((wb = false ∨ (s1.writeBack w l).owesBack w l = false) →
          let t := s1.rangeLine w l wb inv
          let y : Warp := { x with stamped := restamp s1 t w.die x.stamped }
          let last := lineAt runs (pos + 1) = none ∧ (wb = false ∨ t.applied y.stamped = true)
          (last → Ends i s t (go y)) ∧
          (¬ last → Ends i s t (held y (pos + 1))) ∧
          (inv = true → (t.die w.die).copy1 w.part l = none ∧ ∀ e ∈ (t.die w.die).l1, e.2 ≠ l) ∧
          (wb = false → t.mem = s1.mem) ∧ t.queues = s1.queues ∧ t.launches = s1.launches)
    (∀ first runs pos, p.wait = .lines first runs pos → goesOn first runs pos) ∧
    ((∀ first runs pos, p.wait ≠ .lines first runs pos) → UniReadable x p g [f.a.toNat, f.b.toNat] →
      (g = false → Ends i s s1 (x.advance s.cur.b)) ∧
      (∀ q, g = true → x.fw = some q → q.level = 2 → TakesAt i s s1 (Trap.of 0x141 0)) ∧
      (g = true → (∀ q, x.fw = some q → q.level ≠ 2) →
        (2 ^ 30 < n → TakesAt i s s1 (Trap.of 0x084 (15 + 16 * 3))) ∧
        (n = 0 → Ends i s s1 (go x)) ∧
        (0 < n → n ≤ 2 ^ 30 →
          (∀ t, pagesUnder check a .range (pageRuns a n) = .error t → TakesAt i s s1 t) ∧
          ∀ pages, pagesUnder check a .range (pageRuns a n) = .ok pages →
            goesOn s1.serial (lineRuns (pages.filter fun e => e.2.2.type == 1)) 0)))

/-- R267: FENCE holds its split until what its kind names is done at its scope: a release every earlier access of the warp, its engine
commands not among them (log entry 54); an acquire every earlier read, and a WAITV at which the other split is blocked. An acquire
empties the split's fetch buffer (R278). -/
def Sys2Proof.Claims.Fences : Prop :=
  ∀ (f : FmtI) (s s1 : State) (x : Warp) (p : Split), Opens (.fence f) s s1 x p →
    let kind := f.imm.toNat / 8 % 4
    let scope := f.imm.toNat % 8
    let first := p.heldFrom s1.serial
    let rel := (∀ o ∈ x.ops, o.id < first → o.access = true → o.performed = true) ∧ (scope < 4 ∨ s1.applied x.stamped = true)
    let acq := (∀ o ∈ x.ops, o.id < first → o.reads = true → o.done = true) ∧
      ∀ q, x.split (!s.cur.b) = some q → q.wait ≠ .again ∧ ∀ l n, q.wait ≠ .waitv l n
    let full := scope < 4 ∨ s1.applied (s1.die (coreDie s.cur.core)).clock = true
    let holds := (kind ≠ 1 → rel) ∧ (kind ≠ 2 → acq) ∧ (kind = 3 → full)
    (x.cguard f.g f.neg = false → Ends (.fence f) s s1 (x.advance s.cur.b)) ∧
    (x.cguard f.g f.neg = true → holds →
      Ends (.fence f) s s1 ((x.setSplit s.cur.b (some { p with wait := .none, buf := if kind = 2 then p.buf else [] })).advance s.cur.b)) ∧
    (x.cguard f.g f.neg = true → ¬ holds →
      Ends (.fence f) s s1 (x.setSplit s.cur.b (some { p with wait := .fence first, cur := [(p.pc, wordOf (.fence f))] })))

/-- R28, R269: WAITV. Where its read returns a word that meets the test, the word is written back and the split goes on; where the word
does not meet it, the split is blocked on the line. -/
def Sys2Proof.Claims.WaitsForValue : Prop :=
  ∀ (f : Fmt4) (s s1 : State) (x : Warp) (p : Split), Opens (.waitv f) s s1 x p →
    let i : Instr := .waitv f
    let g := x.cguard f.g f.neg
    let va := (x.uval p f.a.toNat).toNat % 2 ^ 57
    let b := x.uval p f.b.toNat
    let m := x.uval p f.c.toNat
    let meets (v : DWord) : Prop := if f.x then b.toNat ≤ (v &&& m).toNat else v &&& m = b
    UniReadable x p g [f.a.toNat, f.b.toNat, f.c.toNat] →
    (g = false → EndsUni i s s1 x p f.nw 0 false 0) ∧
    (g = true → (x.fw = none ∨ (∃ q, x.fw = some q ∧ q.level = 2) ∨ va / 2 ^ 52 ≠ 31) →
      (∀ c l, s1.uniAccess s.cur x .read true va 8 = .error (c, l) → TakesAt i s s1 (Trap.of c l)) ∧
      ∀ a, s1.uniAccess s.cur x .read true va 8 = .ok a →
        (s1.inOrder s.cur.core x (s1.wordRead i a) a = false → exec i s = .next s1) ∧
        (s1.inOrder s.cur.core x (s1.wordRead i a) a = true →
          let r := s1.load (s1.whoOf s.cur.core x) 2 a.hs a.pa 8 a.keyIdx
          (r = none → exec i s = .next s1) ∧
          (∀ t d c, r = some (t, d, some c) → exec i s = .next (t.take s.cur (Trap.of c.toNat 15) (wordOf i))) ∧
          ∀ t d, r = some (t, d, none) →
            let v : DWord := BitVec.ofNat 64 (ofBytes d)
            (meets v → EndsUni i s t x { p with buf := [] } f.nw 0 true v) ∧
            (¬ meets v → Ends i s t (x.setSplit s.cur.b
              (some { p with wait := .waitv (a.pa / 128) ((get s1.writes (a.pa / 128)).getD 0), cur := [(p.pc, wordOf i)] })))))

/-- R279 (Table 2): the state of a line after XPUB. -/
def Sys2Proof.Claims.PublishStates : Prop :=
  (∀ (scope c : Nat), pubAfter (some .clean) scope c = .clean ∧ pubAfter none 5 c = .clean ∧
    (scope ≠ 5 → pubAfter none scope c = .pub scope c)) ∧
  ∀ s1 c1 s2 c2 : Nat, 1 ≤ s1 → s1 ≤ 4 → 1 ≤ s2 → s2 ≤ 5 →
    let after := pubAfter (some (.pub s1 c1)) s2 c2
    let covers (k : Nat) : Prop := s1 ≤ k ∧ s2 ≤ k ∧ inScope k c2 c1 = true
    ∃ k, k ≤ 5 ∧ covers k ∧ (∀ j < k, ¬ covers j) ∧ after = if k = 5 then .clean else .pub k c2

/-- R282: XPUB. The operands and pages are checked once, before any line changes; at level 2 of a firmware core the range must lie in a
guard that grants W (R380; log entry 55). The warp's earlier accesses and engine writes are waited for; the lines change one at a time,
and with the last the fetched words of the lines are dropped within the scope and the split goes on. -/
def Sys2Proof.Claims.Publishing : Prop :=
  ∀ (f : Fmt3) (s s1 : State) (x : Warp) (p : Split), Opens (.xpub f) s s1 x p →
    let i : Instr := .xpub f
    let g := x.cguard f.g f.neg
    let a := (x.uval p f.a.toNat).toNat % 2 ^ 57
    let n := (x.uval p f.b.toNat).toNat
    let scope := f.d.toNat
    let c := s.cur.core
    let w := s1.whoOf c x
    let go (q : Split) : Warp := (x.setSplit s.cur.b (some { q with wait := .none })).advance s.cur.b
    let goesOn (first : Nat) (runs : List (Nat × Nat)) (pos : Nat) : Prop :=
      let held (k : Nat) : Warp := x.setSplit s.cur.b (some { p with wait := .lines first runs k, cur := [(p.pc, wordOf i)] })
      let ready := s1.releaseDone x first scope = true ∧ s1.engineDue x first = false
      (¬ ready → Ends i s s1 (held pos)) ∧
      (ready → lineAt runs pos = none → Ends i s s1 (go { p with buf := [] })) ∧
      ∀ l, ready → lineAt runs pos = some l →
        let t0 := s1.publish w l scope c
        (∀ m, lineAt runs (pos + 1) = some m → Ends i s t0 (held (pos + 1))) ∧
        (lineAt runs (pos + 1) = none → ∃ t : State, exec i s = .next t ∧
          get t.pubs (s1.pubKey w l) = some (pubAfter (s1.pubOf w l) scope c) ∧ t.mem = s.mem ∧
          (∃ y q, t.warp c s.cur.slot = some y ∧ y.split s.cur.b = some q ∧ q.buf = [] ∧ q.wait = .none ∧
            some q.pc = ((go p).split s.cur.b).map (·.pc) ∧ y.lanes = x.lanes ∧ y.k = x.k ∧ y.s = x.s) ∧
          (∀ d, inScope scope c d = true → ∀ e ∈ (t.core d).ileases, inRuns runs e.1 = false) ∧
          (∀ d, (scope = 4 ∨ scope = 5 ∨ d = c / 64) → ∀ e ∈ (t.die d).copies0, inRuns runs e.1 = false) ∧
          ∀ d v y0 y, (d, v) ≠ (c, s.cur.slot) → s1.warp d v = some y0 → t.warp d v = some y →
            if inScope scope c d then
              (∀ e ∈ y.loopBuf, t0.codeIn d y0 runs e.1 = false) ∧
              ∀ b q, y.split b = some q → ∀ e ∈ q.buf, t0.codeIn d y0 runs e.1.toNat = false
            else y = y0)
    (∀ first runs pos, p.wait = .lines first runs pos → goesOn first runs pos) ∧
    ((∀ first runs pos, p.wait ≠ .lines first runs pos) → UniReadable x p g [f.a.toNat, f.b.toNat] →
      (g = false ∨ n = 0 → Ends i s s1 (go p)) ∧
      (g = true → 2 ^ 30 < n → TakesAt i s s1 (Trap.of 0x084 (15 + 16 * 3))) ∧
      (g = true → 0 < n → n ≤ 2 ^ 30 → x.guarded 1 a n = false → TakesAt i s s1 (Trap.of 0x143 (15 + 16 * 3))) ∧
      (g = true → 0 < n → n ≤ 2 ^ 30 → x.guarded 1 a n = true →
        (∀ t, pagesUnder (s1.codeAccess s.cur x) a .range (pageRuns a n) = .error t → TakesAt i s s1 t) ∧
        ∀ pages, pagesUnder (s1.codeAccess s.cur x) a .range (pageRuns a n) = .ok pages → goesOn s1.serial (lineRuns pages) 0))

/-- R283: XPROBE leaves a load of its line in flight, with its result pending. -/
def Sys2Proof.Claims.PublishProbes : Prop :=
  ∀ (f : Fmt3) (s s1 : State) (x : Warp) (p : Split), Opens (.xprobe f) s s1 x p → (f.d = 0 ∨ 16 ≤ f.d.toNat) →
    let i : Instr := .xprobe f
    let g := x.cguard f.g f.neg
    let va := (x.uval p f.a.toNat).toNat % 2 ^ 57
    UniReadable x p g [f.a.toNat] →
    (255 ≤ inFlight x 1 → exec i s = .next s1) ∧
    (inFlight x 1 < 255 →
      (g = false → ∃ y, ExpectsUni x y 0 f.d.toNat 1 false ∧ Ends i s s1 (y.advance s.cur.b)) ∧
      (g = true → x.guarded 0 va 1 = false → TakesAt i s s1 (Trap.of 0x142 15)) ∧
      (g = true → x.guarded 0 va 1 = true →
        (∀ c l, s1.codeAccess s.cur x va = .error (c, l) → TakesAt i s s1 (Trap.of c (if c = 0x186 then 0 else l))) ∧
        ∀ l, s1.codeAccess s.cur x va = .ok l →
          let a : Acc := { Acc.ofLeaf 0 va 128 l with pa := l.pa / 128 * 128 }
          ∃ y, ExpectsUni x y s.serial f.d.toNat 1 true ∧ Issues i s (s1.holdAccs s.cur x [a]) (y.advance s.cur.b)
            { id := s.serial, path := 1, kind := .probe, word := wordOf i, scope := 5, acq := false, rel := false, done := false,
              accs := [a] }))


/-! ### Engines (R268, R289 to R304) -/

/-- R290, R293, R298, R299: CPY and CPY2D on a compute core. -/
def Sys2Proof.Claims.CopyCommands : Prop :=
  (∀ (f : Fmt4) (s s1 : State) (x : Warp) (p : Split), Opens (.cpy f) s s1 x p → s.cur.core < 512 →
    let i : Instr := .cpy f
    let g := x.cguard f.g f.neg
    let w := x.uval p f.c.toNat
    let dst := (x.uval p f.a.toNat).toNat % 2 ^ 57
    let src := (x.uval p f.b.toNat).toNat % 2 ^ 57
    let n := ctlField w 12 24 * 2 ^ 24 + ctlField w 24 0
    let good := ctlField w 4 60 = 0 ∧ ctlField w 2 58 ≠ 0 ∧ ctlField w 16 40 = 0 ∧ ctlField w 4 36 = 0 ∧ ¬ Share dst n src n
    UniReadable x p g [f.a.toNat, f.b.toNat, f.c.toNat] →
    (255 ≤ inFlight x 3 → exec i s = .next s1) ∧
    (inFlight x 3 < 255 →
      (g = false → EndsUni i s s1 x p false 0 false 0) ∧
      (g = true → ¬ good → TakesAt i s s1 (Trap.of 0x281 (w.toNat % 2 ^ 32))) ∧
      (g = true → good → Commands i s s1 x 0x50
        ((s.cur.core / 64 * 16 + s.cur.core % 64 / 4) * 4 + ctlField w 2 56) dst src w 0 []))) ∧
  ∀ (f : Fmt4) (s s1 : State) (x : Warp) (p : Split), Opens (.cpy2d f) s s1 x p → s.cur.core < 512 →
    let i : Instr := .cpy2d f
    let g := x.cguard f.g f.neg
    let w := x.uval p f.c.toNat
    let q := x.uval p (f.c.toNat + 1)
    let dst := (x.uval p f.a.toNat).toNat % 2 ^ 57
    let src := (x.uval p f.b.toNat).toNat % 2 ^ 57
    let rows := ctlField w 16 40
    let row := ctlField w 24 0
    let size (pitch : Nat) : Nat := if rows = 0 ∨ row = 0 then 0 else (rows - 1) * pitch + row
    let good := ctlField w 4 60 = 0 ∧ ctlField w 2 58 ≠ 0 ∧ ctlField w 4 36 = 0 ∧ ctlField w 12 24 = 0 ∧
      (1 < rows → row ≤ ctlField q 32 0) ∧ rows * row < 2 ^ 36 ∧ ¬ Share dst (size (ctlField q 32 0)) src (size (ctlField q 32 32))
    UniReadable x p g [f.a.toNat, f.b.toNat, f.c.toNat, f.c.toNat + 1] →
    (255 ≤ inFlight x 3 → exec i s = .next s1) ∧
    (inFlight x 3 < 255 →
      (g = false → EndsUni i s s1 x p false 0 false 0) ∧
      (g = true → ¬ good → TakesAt i s s1 (Trap.of 0x281 (w.toNat % 2 ^ 32))) ∧
      (g = true → good → Commands i s s1 x 0x51
        ((s.cur.core / 64 * 16 + s.cur.core % 64 / 4) * 4 + ctlField w 2 56) dst src w q []))

/-- R290, R300, R301: COLL on a compute core. -/
def Sys2Proof.Claims.CollectiveCommands : Prop :=
  ∀ (f : Fmt4) (s s1 : State) (x : Warp) (p : Split), Opens (.coll f) s s1 x p → s.cur.core < 512 →
    let i : Instr := .coll f
    let g := x.cguard f.g f.neg
    let w := x.uval p f.c.toNat
    let dst := (x.uval p f.a.toNat).toNat % 2 ^ 57
    let src := (x.uval p f.b.toNat).toNat % 2 ^ 57
    let tn := s1.tenantOf x.launch
    let d := s.cur.core / 64
    let comm := ctlField w 8 48
    let op := ctlField w 2 46
    let n := ctlField w 32 0
    let from_ := if w.getLsbD 44 then 4 else 2
    let into := if w.getLsbD 43 then 4 else 2
    let fields := ctlField w 4 60 = 0 ∧ ctlField w 2 58 ≠ 0 ∧ w.getLsbD 57 = false ∧ op ≠ 3 ∧ ¬ (op = 2 ∧ w.getLsbD 45 = true) ∧
      ctlField w 11 32 = 0
    let size := if from_ = into then into else 4
    let extents (k : Nat) := (op = 0 ∨ n % k = 0) ∧
      (¬ Share dst ((if op = 1 then n / k else n) * into) src ((if op = 2 then n / k else n) * from_) ∨
        (op = 0 ∧ dst = src ∧ n * from_ = n * into))
    UniReadable x p g [f.a.toNat, f.b.toNat, f.c.toNat] →
    (255 ≤ inFlight x 3 → exec i s = .next s1) ∧
    (inFlight x 3 < 255 →
      (g = false → EndsUni i s s1 x p false 0 false 0) ∧
      (g = true → (dst % size ≠ 0 ∨ src % size ≠ 0) → TakesAt i s s1 (Trap.of 0x104 15)) ∧
      (g = true → dst % size = 0 → src % size = 0 →
        (¬ fields → TakesAt i s s1 (Trap.of 0x281 (w.toNat % 2 ^ 32))) ∧
        (fields → get s1.comms (d, tn, comm) = none → op = 0 → ¬ extents 1 → TakesAt i s s1 (Trap.of 0x281 (w.toNat % 2 ^ 32))) ∧
        (fields → get s1.comms (d, tn, comm) = none → (op ≠ 0 ∨ extents 1) → TakesAt i s s1 (Trap.of 0x283 comm)) ∧
        ∀ l, fields → get s1.comms (d, tn, comm) = some l →
          (¬ extents l.length → TakesAt i s s1 (Trap.of 0x281 (w.toNat % 2 ^ 32))) ∧
          (extents l.length → (d, tn) ∉ l → TakesAt i s s1 (Trap.of 0x283 comm)) ∧
          (extents l.length → (d, tn) ∈ l →
            Commands i s s1 x 0x52 (512 + (d * 32 + tn) * 2 + ctlField w 1 56) dst src w 0 l)))

/-- R304: EQSTAT on a compute core: its word and the fields this fixes, what it pushes for each selector, and the layout of that. It
leaves no operation in flight, since nothing but its result changes. -/
def Obligations.EngineStatus : Prop :=
  decodeHead 0xD3722000 = some (.eqstat { nw := false, g := 7, neg := false, a := 17, b := 0, d := 0, x := false }) ∧
  ChecksUni .eqstat false ∧ (∀ f, isSwitching (.eqstat f) = false) ∧
  (∀ (f : Fmt3) (s : State) (x : Warp) (p : Split), At s x p → s.cur.core < 512 →
    let g := x.cguard f.g f.neg
    let a := (x.uval p f.a.toNat).toNat % 256
    UniReadable x p g [f.a.toNat] →
    (a < 4 → GivesUni (.eqstat f) s x p f.nw f.d.toNat g (s.eqstat ((s.cur.core / 64 * 16 + s.cur.core % 64 / 4) * 4 + a)) 4) ∧
    ((a = 0x10 ∨ a = 0x11) → GivesUni (.eqstat f) s x p f.nw f.d.toNat g
      (s.eqstat (512 + (s.cur.core / 64 * 32 + s.tenantOf x.launch) * 2 + (a - 0x10))) 4) ∧
    (4 ≤ a → a ≠ 0x10 → a ≠ 0x11 → GivesUni (.eqstat f) s x p f.nw f.d.toNat g 0 4)) ∧
  ∀ (s : State) (q : Nat) (l : List Place) (n : Nat), get s.engQueues q = some { places := l, done := n } → l.length ≤ 64 →
    let v := (s.eqstat q).toNat
    v % 2 ^ 16 = l.length ∧ v / 2 ^ 32 = n % 65536 ∧
    (∀ j, l.head? = some (.join j) → v / 2 ^ 16 % 2 ^ 16 = 1) ∧
    (l = [] → v / 2 ^ 16 % 2 ^ 16 = 0) ∧
    ∀ j o, l.head? = some (.cmd j) → get s.engOps j = some o →
      v / 2 ^ 16 % 2 ^ 16 = if o.op = 0x52 ∧ (s.allReached o = false ∨ s.awaitsPeers o = true) then 1 else 0

/-- R268: QFENCE waits until every named queue has room for one entry and the warp's earlier commands to them stand in them; then its
join stands last in every named queue, and stays while a command stands before it in one of them. -/
def Sys2Proof.Claims.QueueFences : Prop :=
  ∀ (f : FmtI) (s s1 : State) (x : Warp) (p : Split), Opens (.qfence f) s s1 x p → s.cur.core < 512 →
    let i : Instr := .qfence f
    let g := x.cguard f.g f.neg
    let c := s.cur.core
    let d := c / 64
    let named (q : Nat) : Prop := (∃ n < 4, f.imm.getLsbD n = true ∧ q = (d * 16 + c % 64 / 4) * 4 + n) ∨
      ∃ n < 2, f.imm.getLsbD (4 + n) = true ∧ q = 512 + (d * 32 + s1.tenantOf x.launch) * 2 + n
    let room := ∀ q, named q → (s1.engQueue q).places.length < if q < 512 then 64 else 32
    let there := ∀ e ∈ s1.engOps, e.2.warp = some (c, s.cur.slot) → named e.2.queue → e.2.st ≠ .travelling
    let cmds (l : List Place) : List Place := l.filter fun z => match z with
      | .cmd _ => true
      | .join _ => false
    (g = false → Ends i s s1 (x.advance s.cur.b)) ∧
    (g = true → ¬ (room ∧ there) →
      Ends i s s1 (x.setSplit s.cur.b (some { p with wait := .hold (p.heldFrom s1.serial) p.heldAt, cur := [(p.pc, wordOf i)] }))) ∧
    (g = true → room → there → ∃ t : State, Ends i s t ((x.setSplit s.cur.b (some { p with wait := .none })).advance s.cur.b) ∧
      (∀ q, cmds (t.engQueue q).places = cmds (s1.engQueue q).places) ∧ t.engOps = s1.engOps ∧ t.mem = s1.mem ∧
      ((∀ e ∈ s1.engQueues, Place.join s1.serial ∉ e.2.places) → (∃ q, named q ∧ cmds (s1.engQueue q).places ≠ []) →
        ∀ q, named q → (t.engQueue q).places.getLast? = some (.join s1.serial)))


/-! ### The matrix array (R309 to R333) -/

/-- R309, R317, R322, R328, R329, R331: MLOAD, MSTORE, MRES and MZERO on a compute core. Addresses are taken modulo 2³² (log entry 48);
MSTORE's image is as long as the MX mode at its performance says, read at issue (log entry 89): the array's own where the warp's handler
serves a stall, else that which the MLOADs in the queue leave. -/
def Sys2Proof.Claims.ArrayWords : Prop :=
  (∀ f : Fmt3, ArrayWord (.mload f) f 4 fun s c x a b =>
    let fmt := b.toNat / 2 ^ 6 % 2 ^ 4
    let scaled := b.getLsbD 10
    if b.toNat < 2 ^ 11 ∧ b.toNat / 4 % 2 ^ 4 = 0 ∧ fmt ∈ [1, 3, 4, 7, 8] ∧ ¬ (scaled = true ∧ (fmt = 1 ∨ fmt = 8)) then
      rangeTrap s c x a (if scaled then 8704 else 8192)
    else some (badControl b)) ∧
  (∀ f : Fmt3, ArrayWord (.mstore f) f 5 fun s c x a b =>
    let m := (s.core c.core).matrix
    let queued := m.queue.foldl (fun r o => if o.op = 4 then o.b.getLsbD 10 else r) m.mx
    let scaled := if (s.core c.core).serving c.slot x then m.mx else queued
    if b.toNat < 4 then rangeTrap s c x a (if scaled then 8704 else 8192) else some (badControl b)) ∧
  (∀ f : Fmt3, ArrayWord (.mres f) f 6 fun _ _ _ a b =>
    if 512 ≤ a.toNat ∨ (a.getLsbD 8 = true ∧ a.toNat % 256 ≠ 0) then some (badControl a)
    else if 8 ≤ b.toNat then some (badControl b)
    else if a = 255 then some (Trap.of 0x246 255)
    else none) ∧
  ∀ f : Fmt3, ArrayWord (.mzero f) f 11 fun s c x a b =>
    if 65536 < b.toNat ∨ b.toNat % 128 ≠ 0 then some (badControl b) else rangeTrap s c x a b.toNat

/-- R328, R329: what the array does when it performs a MLOAD's first unit and a MRES. -/
def Sys2Proof.Claims.ArrayEffects : Prop :=
  (∀ (m : Matrix) (fmt suit : Nat) (mx : Bool),
    let n := m.adopt fmt mx suit
    ((m.fmt = fmt ∧ m.mx = mx) → n = m) ∧
    (¬ (m.fmt = fmt ∧ m.mx = mx) → n.fmt = fmt ∧ n.mx = mx ∧ (∀ z, z ≠ suit → n.suit z = []) ∧ n.suit suit = m.suit suit ∧
      ∀ e ∈ n.hand, e.2 = suit)) ∧
  ∀ (m : Matrix) (a b : DWord), b.toNat < 8 →
    let n := m.setHand a b
    let entry : Option Nat := if b.getLsbD 2 then some (b.toNat % 4) else none
    (a.toNat < 255 → get n.hand a.toNat = entry ∧ ∀ z, z ≠ a.toNat → get n.hand z = get m.hand z) ∧
    (a.toNat = 256 → (∀ z < 255, get n.hand z = entry) ∧ ∀ z, 255 ≤ z → get n.hand z = get m.hand z)

/-- R330: MRESQ on a compute core. A hand entry is read in array order; the stall record and the status at once. -/
def Sys2Proof.Claims.ArrayReads : Prop :=
  (∀ (f : Fmt3) (s s1 : State) (x : Warp) (p : Split), Opens (.mresq f) s s1 x p → s.cur.core < 512 → (f.d = 0 ∨ 16 ≤ f.d.toNat) →
    let i : Instr := .mresq f
    let g := x.cguard f.g f.neg
    let k := s1.core s.cur.core
    let sel := (x.uval p f.a.toNat).toNat % 2 ^ 9
    let o : Op := { id := s.serial, path := 3, kind := .mresq sel, word := wordOf i, scope := 1, acq := false, rel := false, done := false,
                    accs := [] }
    let with_ (v : DWord) : Op := { o with
      accs := [{ lane := 0, va := 0, pa := 0, size := 8, key := 8192, type := 0, hs := false, data := [], opnd := v.toNat, cmp := 0, got := none }] }
    let mine := k.matrix.owner = none ∨ k.matrix.owner = some x.launch
    (¬ mine → exec i s = .next (s1.waitsFor s.cur x)) ∧
    (mine → g = true → 255 ≤ inFlight x 3 → exec i s = .next s1) ∧
    (mine → UniReadable x p g [f.a.toNat] →
      (g = false → ∃ y, ExpectsUni x y 0 f.d.toNat 1 false ∧ Ends i s (s1.owns s.cur x) (y.advance s.cur.b)) ∧
      (g = true → inFlight x 3 < 255 →
        ∃ y, ExpectsUni x y s.serial f.d.toNat 1 true ∧
          (256 ≤ sel → Issues i s (s1.owns s.cur x) (y.advance s.cur.b)
            (with_ (if sel = 256 then k.matrix.stall.word_ else if sel = 257 then k.matrix.status else 0))) ∧
          (sel < 256 → k.serving s.cur.slot x = false → ∃ t : State, exec i s = .next t ∧
            (∃ z, t.warp s.cur.core s.cur.slot = some { z with ops := z.ops ++ [o], openOps := z.openOps ++ [s.serial] } ∧
              z = y.advance s.cur.b) ∧
            (∃ q : MatOp, (t.core s.cur.core).matrix.queue = k.matrix.queue ++ [q] ∧ q.id = s.serial ∧ q.op = 7 ∧ q.a.toNat = sel))))) ∧
  (∀ (m : Matrix) (n : Nat), (∀ z, get m.hand n = some z → m.handWord n = BitVec.ofNat 64 (4 + z)) ∧ (get m.hand n = none → m.handWord n = 0)) ∧
  (∀ m : Matrix, m.status.getLsbD 11 = m.stall.stalled ∧ m.status.getLsbD 10 = m.mx ∧ m.status.toNat / 64 % 16 = m.fmt % 16 ∧
    m.status.toNat % 64 = 0 ∧ m.status.toNat < 2 ^ 12) ∧
  ∀ r : Stall, r.sel < 256 → r.batch < 16 → r.row < 384 → r.member < 6 → r.lane < 64 → r.op < 3 →
    let v := r.word_.toNat
    v / 2 ^ 40 = r.sel ∧ v / 2 ^ 36 % 16 = r.batch ∧ v / 2 ^ 27 % 512 = r.row ∧ v / 2 ^ 24 % 8 = r.member ∧ v / 2 ^ 18 % 64 = r.lane ∧
    v / 2 ^ 16 % 4 = r.op ∧ v / 4 % 2 ^ 14 = 0 ∧ r.word_.getLsbD 1 = r.lost ∧ r.word_.getLsbD 0 = r.stalled

/-- R28, R309, R319, R322, R332, R333: MFENCE and MWAIT, which need the array and take it as every matrix word does. Field a of an
MWAIT whose imm13 is not 16 may hold any source code (log entry 87). -/
def Sys2Proof.Claims.ArrayBatches : Prop :=
  (∀ (f : Fmt3) (s s1 : State) (x : Warp) (p : Split), Opens (.mfence f) s s1 x p →
    let i : Instr := .mfence f
    let g := x.cguard f.g f.neg
    let k := s1.core s.cur.core
    let busy := ∃ o ∈ k.matrix.queue, o.id ∈ (get x.closed x.next).getD []
    let mine := k.matrix.owner = none ∨ k.matrix.owner = some x.launch
    let t := s1.owns s.cur x
    (¬ mine → exec i s = .next (s1.waitsFor s.cur x)) ∧
    (mine → g = false → EndsUni i s t x p f.nw f.d.toNat false 0) ∧
    (mine → g = true → busy → Ends i s t
      (x.setSplit s.cur.b (some { p with wait := .hold (p.heldFrom s1.serial) p.heldAt, cur := [(p.pc, wordOf i)] }))) ∧
    (mine → g = true → ¬ busy → EndsUni i s t { x with closed := put x.closed x.next x.openOps, openOps := [], next := (x.next + 1) % 16 }
      { p with wait := .none } f.nw f.d.toNat true (BitVec.ofNat 64 x.next))) ∧
  ∀ (f : FmtI) (s s1 : State) (x : Warp) (p : Split), Opens (.mwait f) s s1 x p → f.imm.toNat < 18 →
    let i : Instr := .mwait f
    let g := x.cguard f.g f.neg
    let k := s1.core s.cur.core
    let n := if f.imm = 16 then (x.uval p f.a.toNat).toNat % 16 else f.imm.toNat
    let busy := if f.imm = 17 then ∃ e ∈ x.closed, ∃ o ∈ k.matrix.queue, o.id ∈ e.2
      else ∃ o ∈ k.matrix.queue, o.id ∈ (get x.closed n).getD []
    let mine := k.matrix.owner = none ∨ k.matrix.owner = some x.launch
    let t := s1.owns s.cur x
    (¬ mine → exec i s = .next (s1.waitsFor s.cur x)) ∧
    (mine → UniReadable x p (g && f.imm == 16) [f.a.toNat] →
    (g = false → Ends i s t (x.advance s.cur.b)) ∧
    (g = true → ¬ busy → Ends i s t ((x.setSplit s.cur.b (some { p with wait := .none, buf := [] })).advance s.cur.b)) ∧
    (g = true → busy → k.serving s.cur.slot x = true → TakesAt i s s1 (Trap.of 0x245 0)) ∧
    (g = true → busy → k.serving s.cur.slot x = false → Ends i s t
      (x.setSplit s.cur.b (some { p with wait := .mwait n, cur := [(p.pc, wordOf i)] }))))

/-- R315, R316, R325, R326, R327: MMA, MMAT, MPERM, MRED and MGRAD on a compute core. -/
def Sys2Proof.Claims.GangedWords : Prop :=
  ∀ f : Fmt4, GangWord (.mma f) f 0 ∧ GangWord (.mmat f) f 1 ∧ GangWord (.mperm f) f 2 ∧ GangWord (.mred f) f 3 ∧ GangWord (.mgrad f) f 10

/-- R324 (Table 4): the control words that each instruction of the MMA family accepts. -/
def Sys2Proof.Claims.ControlWords : Prop :=
  ∀ c : DWord,
    let ps := ctlField c 4 56
    let par := ctlField c 6 50
    let psel := c.getLsbD 49 = true
    let off := ctlField c 16 32
    let mx := c.getLsbD 8 = true
    let base := ctlField c 4 60 = 0 ∧ ctlField c 23 9 = 0 ∧ ctlField c 2 6 = 0
    let pseudo := ps ≤ 5 ∧ (ps < 2 → par = 0)
    (controlOk 0 c = true ↔ base ∧ ps = 0 ∧ par = 0 ∧ ¬ psel ∧ (mx ∨ off = 0)) ∧
    (controlOk 1 c = true ↔ base ∧ (if c.getLsbD 49 then pseudo ∧ off = 0 ∧ ¬ mx else ps = 0 ∧ par = 0 ∧ (mx ∨ off = 0))) ∧
    (controlOk 2 c = true ↔ base ∧ pseudo ∧ ¬ psel ∧ off = 0 ∧ ¬ mx) ∧
    (controlOk 3 c = true ↔ base ∧ (ps = 8 ∨ ps = 9) ∧ par ≤ 6 ∧ ¬ psel ∧ off = 0 ∧ ¬ mx) ∧
    (controlOk 10 c = true ↔ base ∧ ps = 0 ∧ par = 0 ∧ ¬ psel ∧ c.getLsbD 48 = false ∧ ¬ mx)

/-- R326 (Table 5): the elements that pseudo-suits 0 to 5 give, widened from BF16 to F32 (a BF16 pattern is the top half of its F32). -/
def Sys2Proof.Claims.ConstantMatrices : Prop :=
  ∀ (r : Row) (p n : Nat), n < 64 → p < 64 →
    let pat (k : Nat) : Nat := ofBytes [r.a.getD (2 * k) 0, r.a.getD (2 * k + 1) 0]
    let wide (k v : Nat) : Prop := pat k / 2 ^ 7 % 2 ^ 8 ≠ 255 → v = pat k * 2 ^ 16
    wide n (pseudoElem r 0 0 n) ∧ wide (63 - n) (pseudoElem r 1 0 n) ∧
    (n + p < 64 → wide (n + p) (pseudoElem r 2 p n)) ∧ (64 ≤ n + p → pseudoElem r 2 p n = 0) ∧
    (p ≤ n → wide (n - p) (pseudoElem r 3 p n)) ∧ (n < p → pseudoElem r 3 p n = 0) ∧
    wide ((n + p) % 64) (pseudoElem r 4 p n) ∧ wide (n ^^^ p) (pseudoElem r 5 p n)


/-! ### Groups (R131) -/

/-- R131: the group form of REDX. k0 is checked for a pending mark whatever lanes are enabled (log entry 82). A warp arrives at the
open phase of k0's group, carrying its value and function; at a passed phase each active lane gets the total, or the warp takes
0x2C5 where the members did not agree. -/
def Sys2Proof.Claims.GroupReductions : Prop :=
  ∀ (f : Fmt3) (s s1 : State) (x : Warp) (p : Split), f.b.getLsbD 5 = true → Opens (.redx f) s s1 x p →
    let i : Instr := .redx f
    let c := s.cur
    let g := (x.uval p 0).toNat % 256
    let act := x.active p f.g f.neg
    let fn := f.b.toNat % 16
    let t := combineTree fn f.x x.width.log2 ((List.range x.width).map (contribution x p f))
    let member : Option Group := (s1.core c.core).groups.find? fun h => h.launch == x.launch && h.image == g && h.members.getLsbD c.slot
    ((∀ h n, p.wait ≠ .redx h n) →
      LanesReadable x p (x.enabledLanes p f.g f.neg (if f.x then 2 else 4)) [f.a.toNat] → UniReadable x p true [0] →
      (member = none → TakesAt i s s1 (Trap.of 0x2C4 g)) ∧
      ∀ e, member = some e →
        (∀ ph, get x.armed g = some ph → TakesAt i s s1 (Trap.of 0x2C6 g)) ∧
        (get x.armed g = none → x.live ≠ 1 → TakesAt i s s1 (Trap.of 0x2C5 g)) ∧
        (get x.armed g = none → x.live = 1 → NoTrap x (fun l => if act.getLsbD l then t.2 else 0) →
          let arrive (h : Group) : Group := { h with arrived := h.arrived ||| BitVec.ofNat 64 (2 ^ c.slot), due := put h.due c.slot x.dueWrites, carried := put h.carried c.slot (fn, f.x, t.1) }
          Ends i s (s1.updGroup c x.launch g arrive)
            ({ x with fpc := x.fpc ||| BitVec.ofNat 64 (8 * t.2), dirty := x.dirty || x.frozen.isSome }.setSplit c.b
              (some { p with wait := .redx g e.phase, cur := [(p.pc, wordOf i)] })))) ∧
    ∀ (h n : Nat), p.wait = .redx h n →
      let left : Option (Option Word) := ((s1.core c.core).group x.launch c.slot h).bind fun e => e.result c.slot n
      let u := s1.updGroup c x.launch h fun e => e.collect c.slot n
      (left = none → exec i s = .next s1) ∧
      (left = some none →
        exec i s = .next ((u.putWarp c (x.setSplit c.b (some { p with wait := .none }))).take c (Trap.of 0x2C5 h) (wordOf i))) ∧
      ∀ v, left = some (some v) → ∃ y q, Ends i s u y ∧ y.split c.b = some q ∧ q.wait = .none ∧ q.buf = [] ∧
        some q.pc = ((x.advance c.b).split c.b).map (·.pc) ∧
        (f.x = false → ∀ l < x.width, act.getLsbD l = true → ∃ z, q.l.head? = some z ∧ z.valid = true ∧ z.cells[l]? = some (Cell32.of v) ∧
          (f.nw = false → f.d = 0 → ∀ a, x.lanes[l]? = some a → y.lanes[l]? = some { a with q := Cell32.of v :: a.q.take 15 }))

/-! ### Causes, handlers and firmware levels (R338 to R351, R377 to R379) -/

/-- R338 to R340: taking a cause outside a handler in a kernel that has one, on a compute core: the trap registers, the frozen state, the
shadow bank and the handler's split. -/
def Sys2Proof.Claims.TrapEntry : Prop :=
  ∀ (s : State) (c : Cur) (x : Warp) (p : Split) (t : Trap) (word : Word) (entry : VA),
    s.warp c.core c.slot = some x → x.split c.b = some p → x.fw = none → x.frozen = none →
    (s.launch x.launch).bind Launch.trapEntry = some entry → t.cause < 2 ^ 10 →
    ∃ y z, s.take c t word = s.putWarp c y ∧
      y.tcause = BitVec.ofNat 64 (t.cause + (if t.after then 2 ^ 11 else 0) + (if c.b then 2 ^ 13 else 0)) ∧
      y.tpc = (if t.after then p.pc + 4 else p.pc).zeroExtend 64 ∧ y.tmask = t.mask.getD p.mask ∧
      y.tinfo.toNat % 2 ^ 32 = (if t.word then word.toNat else 0) ∧ y.tinfo.toNat / 2 ^ 32 = t.info % 2 ^ 32 ∧
      y.a = some (Split.start entry p.mask) ∧ y.b = none ∧ y.status = x.status ∧
      y.k = List.replicate 16 (Cell64.of 0) ∧ y.c = 0 ∧ y.loops = List.replicate 3 Loop.off ∧
      y.s = x.s.take 24 ++ List.replicate 8 (Cell64.of 0) ∧ y.fpc = x.fpc ∧ y.gang = x.gang ∧ y.ops = x.ops ∧ y.lanes.length = x.lanes.length ∧
      (∀ (l : Nat) (a : Lane), x.lanes[l]? = some a →
        let v := a.v.take 24 ++ List.replicate 8 (Cell32.of 0)
        y.lanes[l]? = some { a with q := List.replicate 16 (Cell32.of 0), v := v, p := List.replicate 7 0, n := 0 }) ∧
      y.frozen = some z ∧ z.cause = t.cause ∧ z.inB = c.b ∧ z.a = x.a ∧ z.b = x.b ∧ z.k = x.k ∧ z.c = x.c ∧ z.shi = x.s.drop 24 ∧
      z.loops = x.loops ∧ z.frames = x.frames ∧
      z.lanes = x.lanes.map fun a => { q := a.q, vhi := a.v.drop 24, p := a.p, n := a.n }

/-- R114: a word whose issues disagree takes 0x381 with the mismatch's lanes and source code; a mismatch of the result (63) gives way to
the word's other causes (log entry 76). Here a NOP and an IADD. -/
def Sys2Proof.Claims.Mismatches : Prop :=
  ∀ (s : State) (x : Warp) (p : Split) (m : Misfit), s.warp s.cur.core s.cur.slot = some x → x.split s.cur.b = some p → x.misfit = some m →
    let base := s.putWarp s.cur { x with misfit := none }
    let trap := Trap.lanes 0x381 m.code m.lanes
    (∀ z, exec (.nop z) s = .next (base.take s.cur trap (wordOf (.nop z)))) ∧
    ∀ f : Fmt3, let en := x.enabledLanes p f.g f.neg (if f.x then 2 else 4)
      (LanesReadable x p en [f.a.toNat, f.b.toNat] → exec (.iadd f) s = .next (base.take s.cur trap (wordOf (.iadd f)))) ∧
      (f.a = 48 → (p.l.getD 0 LatchL.empty).valid = false →
        (∀ c ∈ [f.a.toNat, f.b.toNat], ∀ l < x.width, (x.src p (.int 32) c l).poison = none) →
        exec (.iadd f) s = .next (base.take s.cur (if m.code = 63 then Trap.of 0x081 48 else trap) (wordOf (.iadd f))))

/-- R343, R370: a cause in a handler, or in a kernel that has none, stops the warp and fails its launch. -/
def Sys2Proof.Claims.UnhandledCauses : Prop :=
  ∀ (s : State) (c : Cur) (x : Warp) (p : Split) (t : Trap) (word : Word) (e : Launch),
    s.warp c.core c.slot = some x → x.split c.b = some p → x.fw = none → s.launch x.launch = some e → e.st = .running →
    (x.frozen ≠ none ∨ e.header.trapOff = 0) → s.parked = [] →
    ∃ y r, (s.take c t word).warp c.core c.slot = some y ∧ y.status = .failed ∧
      (s.take c t word).launch x.launch = some r ∧ r.st = .failed ∧ r.cause = t.cause ∧ r.errAt = some (c.core, c.slot) ∧
      r.record.getD 0 0 = BitVec.ofNat 64 (t.cause + (if t.after then 2 ^ 11 else 0) + (if c.b then 2 ^ 13 else 0)) ∧
      r.record.getD 1 0 = (if t.after then p.pc + 4 else p.pc).zeroExtend 64 ∧ r.record.getD 2 0 = t.mask.getD p.mask ∧
      r.record.getD 4 0 = (if x.frozen = none then 0 else x.tcause)

/-- R344, R345: TRAP and BKPT. -/
def Sys2Proof.Claims.SoftwareTraps : Prop :=
  (∀ (f : FmtI) (s s1 : State) (x : Warp) (p : Split), Opens (.trap f) s s1 x p →
    (x.cguard f.g f.neg = false → Ends (.trap f) s s1 (x.advance s.cur.b)) ∧
    (x.cguard f.g f.neg = true →
      TakesAt (.trap f) s s1 { cause := 0x342, mask := none, info := f.imm.toNat, after := true, word := true })) ∧
  ∀ (f : Fmt3) (s s1 : State) (x : Warp) (p : Split), Opens (.bkpt f) s s1 x p →
    let inside := x.frozen ≠ none ∨ ∃ w, x.fw = some w ∧ w.prev ≠ none
    let stops := (s1.core s.cur.core).dbg.getLsbD 1 = true
    (x.cguard f.g f.neg = false ∨ inside → Ends (.bkpt f) s s1 (x.advance s.cur.b)) ∧
    (x.cguard f.g f.neg = true → ¬ inside → stops → Ends (.bkpt f) s s1 { x.advance s.cur.b with debug := .asked s.cur.b }) ∧
    (x.cguard f.g f.neg = true → ¬ inside → ¬ stops →
      TakesAt (.bkpt f) s s1 { cause := 0x341, mask := none, info := 0, after := true, word := true })

/-- R341, R346, R377: ERET: the frozen state comes back, the trapped split at TPC; on a firmware core the previous level does. -/
def Sys2Proof.Claims.TrapReturns : Prop :=
  ∀ (f : Fmt3) (s s1 : State) (x : Warp) (p : Split), Opens (.eret f) s s1 x p →
    let i : Instr := .eret f
    let g := x.cguard f.g f.neg
    let inside := x.frozen ≠ none ∨ ∃ w, x.fw = some w ∧ w.prev ≠ none
    let back : VA := x.tpc.truncate 57 &&& ~~~3
    (¬ inside → TakesAt i s s1 (Trap.of 0x305 0)) ∧
    (inside → g = false → Ends i s s1 (x.advance s.cur.b)) ∧
    (∀ z : Frozen, x.fw = none → x.frozen = some z → g = true → ∃ t y, Ends i s t y ∧ t.mem = s.mem ∧ y.frozen = none ∧
      y.k = z.k ∧ y.c = z.c ∧ y.loops = z.loops ∧ y.frames = z.frames ∧ y.s = x.s.take 24 ++ z.shi ∧ y.fpc = x.fpc ∧
      y.ops = x.ops ++ x.withdrawn ∧ y.withdrawn = [] ∧ y.lanes.length = x.lanes.length ∧
      (∀ (l : Nat) (a : Lane) (h : LaneShadow), x.lanes[l]? = some a → z.lanes[l]? = some h →
        y.lanes[l]? = some { a with q := h.q, v := a.v.take 24 ++ h.vhi, p := h.p, n := h.n }) ∧
      (∀ q, (if z.inB then z.b else z.a) = some q → ∃ r, y.split z.inB = some r ∧ r.pc = back ∧ r.mask = q.mask ∧ r.l = q.l ∧ r.m = q.m ∧
        r.frame = q.frame) ∧
      (y.split (!z.inB)).map (fun q => (q.pc, q.mask, q.l, q.m)) = (if z.inB then z.a else z.b).map fun q => (q.pc, q.mask, q.l, q.m)) ∧
    ∀ w lvl, x.fw = some w → w.prev = some lvl → g = true → lvl ≠ w.level → ∃ y v, Ends i s s1 y ∧ y.fw = some v ∧ v.level = lvl ∧ v.prev = none ∧
      ∀ n, get w.banks lvl = some n → y.k = n.k ∧ y.s = n.s ∧ y.c = n.c ∧ ∀ q, x.a = some q → ∃ r, y.a = some r ∧ r.pc = back ∧ r.m = n.m

/-- R347, R350, R351: SAVEC, RSTC and SIGS in a handler of a compute core, and the cause that each takes outside. A SAVEC withdraws the
warp's ring operations and holds its split until the counters and batches have drained; its context is written by R349, and a RSTC's is
read by R350, as `writeCtx` and `readCtx` say (PRIV's layout is log entry 27, a ring record's other fields log entry 28). SIGS parks the
warp, and its slot is given up only with its whole workgroup (log entry 74). -/
def Sys2Proof.Claims.ContextWords : Prop :=
  (∀ (f : Fmt3) (i : Instr) (s s1 : State) (x : Warp) (p : Split), (i = .savec f ∨ i = .rstc f ∨ i = .sigs f) → Opens i s s1 x p →
    x.frozen = none → (∀ w, x.fw = some w → w.prev = none) → TakesAt i s s1 (Trap.of 0x305 0)) ∧
  (∀ (f : Fmt3) (s s1 : State) (x : Warp) (p : Split) (z : Frozen), Opens (.savec f) s s1 x p → s.cur.core < 512 → x.frozen = some z →
    let i : Instr := .savec f
    let g := x.cguard f.g f.neg
    let a := x.uval p f.a.toNat
    let area := if a = 0 then s1.ownArea s.cur else a.toNat % 2 ^ 57
    UniReadable x p g [f.a.toNat] →
    (g = false → Ends i s s1 (x.advance s.cur.b)) ∧
    (g = true → area % 128 ≠ 0 → TakesAt i s s1 (Trap.of 0x104 (15 + 16))) ∧
    (g = true → area % 128 = 0 → p.heldAt ≠ 1 →
      let r := s1.withdrawRings s.cur x
      r.1.drained s.cur r.2 = false →
      Ends i s r.1 (r.2.setSplit s.cur.b
        (some { p with wait := .hold (p.heldFrom r.1.serial) p.heldAt, cur := [(p.pc, wordOf i)] }))) ∧
    (g = true → area % 128 = 0 → p.heldAt = 1 → s1.applied x.stamped = true →
      Ends i s s1 (({ x with savedArea := some area, dirty := false, frozen := some { z with saved := true } }.setSplit s.cur.b
        (some { p with wait := .none })).advance s.cur.b)) ∧
    (g = true → area % 128 = 0 → p.heldAt ≠ 1 →
      let r := s1.withdrawRings s.cur x
      r.1.drained s.cur r.2 = true →
      ∀ u, r.1.writeCtx s.cur r.2 z area false = .done u () → exec i s = .next (u.endSave s.cur i area))) ∧
  (∀ (f : Fmt3) (s s1 : State) (x : Warp) (p : Split) (z : Frozen), Opens (.rstc f) s s1 x p → s.cur.core < 512 → x.frozen = some z →
    let i : Instr := .rstc f
    let g := x.cguard f.g f.neg
    let a := x.uval p f.a.toNat
    let area := if a = 0 then s1.ownArea s.cur else a.toNat % 2 ^ 57
    UniReadable x p g [f.a.toNat] →
    (g = false → Ends i s s1 (x.advance s.cur.b)) ∧
    (g = true → area % 128 ≠ 0 → TakesAt i s s1 (Trap.of 0x104 15)) ∧
    (g = true → area % 128 = 0 → ∀ u y, s1.readCtx s.cur x z area = .done u y → Ends i s u (y.advance s.cur.b))) ∧
  ∀ (f : Fmt3) (s s1 : State) (x : Warp) (p : Split) (z : Frozen), Opens (.sigs f) s s1 x p → s.cur.core < 512 → x.frozen = some z →
    let g := x.cguard f.g f.neg
    (g = false → Ends (.sigs f) s s1 (x.advance s.cur.b)) ∧
    (g = true → (z.saved = false ∨ x.dirty = true) → TakesAt (.sigs f) s s1 (Trap.of 0x306 0)) ∧
    (g = true → z.saved = true → x.dirty = false → exec (.sigs f) s = .next (s1.park s.cur x) ∧
      (s1.park s.cur x).warp s.cur.core s.cur.slot = none ∧ (s1.park s.cur x).mem = s.mem ∧
      ∃ e : Parked, get (s1.park s.cur x).parked s.serial = some e ∧ e.launch = x.launch ∧ e.core = s.cur.core ∧ e.slot = s.cur.slot ∧
        e.area = x.savedArea.getD 0 ∧ e.warp.status = .parked ∧ e.warp.req = x.req.filter fun r => !isPreempt r)

/-- R377: a cause on a firmware core enters level 0 at the vector block's trap entry, with the previous level recorded. -/
def Sys2Proof.Claims.FirmwareCauses : Prop :=
  ∀ (s : State) (c : Cur) (x : Warp) (p : Split) (t : Trap) (word : Word) (w : Fw),
    s.warp c.core c.slot = some x → x.split c.b = some p → x.fw = some w →
    ∃ y v, s.take c t word = s.putWarp c y ∧ y.fw = some v ∧ v.level = 0 ∧ v.prev = some w.level ∧
      (∀ q, x.a = some q → ∃ r, y.a = some r ∧ r.pc = BitVec.ofNat 57 (w.vec.toNat + 0xC000)) ∧
      y.tcause = BitVec.ofNat 64 (t.cause + (if t.after then 2 ^ 11 else 0) + (if c.b then 2 ^ 13 else 0)) ∧
      y.tpc = (if t.after then p.pc + 4 else p.pc).zeroExtend 64 ∧ y.tmask = t.mask.getD p.mask ∧
      (w.level ≠ 0 → get v.banks w.level = some { k := x.k, s := x.s, c := x.c, m := (x.a.map (·.m)).getD [] })

/-- R378, R379: LVCALL, LVRET and RGSET. They take 0x141 on a compute core. -/
def Sys2Proof.Claims.LevelWords : Prop :=
  (∀ (f : Fmt3) (i : Instr) (s s1 : State) (x : Warp) (p : Split), (i = .lvcall f ∨ i = .lvret f ∨ i = .rgset f) → Opens i s s1 x p →
    (x.fw = none → TakesAt i s s1 (Trap.of 0x141 0)) ∧
    (∀ w, x.fw = some w → x.cguard f.g f.neg = false →
      UniReadable x p false (if i = .lvret f then [f.a.toNat] else [f.a.toNat, f.b.toNat]) → Ends i s s1 (x.advance s.cur.b))) ∧
  (∀ (f : Fmt3) (s s1 : State) (x : Warp) (p : Split) (w : Fw), Opens (.lvcall f) s s1 x p → x.fw = some w → x.cguard f.g f.neg = true →
    let i : Instr := .lvcall f
    let a := (x.uval p f.a.toNat).toNat
    let bad := 2 ^ 16 ≤ a ∨ a / 4 % 2 ^ 6 ≠ 0 ∨ a % 4 = 3
    UniReadable x p true [f.a.toNat, f.b.toNat] →
    (bad → TakesAt i s s1 (Trap.of 0x083 0)) ∧
    (¬ bad → (a % 4 = w.level ∨ 4 ≤ w.stack.length) → TakesAt i s s1 (Trap.of 0x141 0)) ∧
    (¬ bad → a % 4 ≠ w.level → w.stack.length < 4 → s.cur.b = false → ∃ y v, Ends i s s1 y ∧ y.fw = some v ∧ v.level = a % 4 ∧
      v.stack = { ret := p.pc + 4, level := w.level, guards := w.enables } :: w.stack ∧
      (∃ q, y.a = some q ∧ q.pc = BitVec.ofNat 57 (w.vec.toNat + 0x4000 * (a % 4) + 64 * (a / 256 % 256))) ∧
      ∀ n, get w.banks (a % 4) = some n → y.k = Cell64.of (x.uval p f.b.toNat) :: n.k.take 15 ∧ y.s = n.s ∧ y.c = n.c)) ∧
  (∀ (f : Fmt3) (s s1 : State) (x : Warp) (p : Split) (w : Fw), Opens (.lvret f) s s1 x p → x.fw = some w → x.cguard f.g f.neg = true →
    let i : Instr := .lvret f
    UniReadable x p true [f.a.toNat] →
    (w.stack = [] → TakesAt i s s1 (Trap.of 0x141 0)) ∧
    ∀ e r, w.stack = e :: r → s.cur.b = false → e.level ≠ w.level → ∃ y v, Ends i s s1 y ∧ y.fw = some v ∧ v.level = e.level ∧ v.stack = r ∧
      (∀ n g, get w.guards n = some g → get v.guards n = some { g with en := e.guards.getLsbD n }) ∧
      (∃ q, y.a = some q ∧ q.pc = e.ret) ∧
      ∀ n, get w.banks e.level = some n → y.k = Cell64.of (x.uval p f.a.toNat) :: n.k.take 15 ∧ y.s = n.s ∧ y.c = n.c) ∧
  ∀ (f : Fmt3) (s s1 : State) (x : Warp) (p : Split) (w : Fw), Opens (.rgset f) s s1 x p → x.fw = some w → x.cguard f.g f.neg = true →
    let i : Instr := .rgset f
    let a := x.uval p f.a.toNat
    let n := (x.uval p f.b.toNat).toNat
    let good := ctlField a 7 57 = 0 ∧ ctlField a 4 8 = 0 ∧ ctlField a 2 3 = 0
    UniReadable x p true [f.a.toNat, f.b.toNat] →
    (w.level = 2 → TakesAt i s s1 (Trap.of 0x141 0)) ∧
    (w.level ≠ 2 → ¬ good → TakesAt i s s1 (Trap.of 0x083 0)) ∧
    (w.level ≠ 2 → good → (n % 4096 ≠ 0 ∨ 2 ^ 48 < n) → TakesAt i s s1 (Trap.of 0x084 0)) ∧
    (w.level ≠ 2 → good → n % 4096 = 0 → n ≤ 2 ^ 48 →
      let guard : Guard := { en := decide (n ≠ 0), base := BitVec.ofNat 57 (ctlField a 45 12 * 4096), len := n, r := a.getLsbD 5
                             w := a.getLsbD 6, x := a.getLsbD 7 }
      Ends i s s1 ({ x with fw := some { w with guards := put w.guards (a.toNat % 8) guard } }.advance s.cur.b))


/-! ### Rows of the memory system (R103, R213, R218, R220, R238 to R245, R264) -/

/-- A warp on a slot with an operation in flight whose access by one lane may be performed now (R213, R214, R258, R259). -/
structure Sys2Proof.Claims.Performs (s : State) (c w : Nat) (x : Warp) (o : Op) (a : Acc) : Prop where
  warp : s.warp c w = some x
  only : ∀ z ∈ x.ops, z.id = o.id → z = o
  isIn : o ∈ x.ops
  due : o.done = false
  acc : a ∈ o.accs
  one : ∀ z ∈ o.accs, z.lane = a.lane → z = a
  lane : a.lane < 64
  turn : o.groupTurn a = true
  order : s.inOrder c x o a = true

/-- In the warp y each value of lane l that awaited word i of operation `id`, for i below n, holds `v i`; a cell that awaits nothing is
as it was (R103). -/
def Sys2Proof.Claims.Filled (x y : Warp) (id l n : Nat) (v : Nat → Word) : Prop :=
  ∀ a, x.lanes[l]? = some a → ∃ b, y.lanes[l]? = some b ∧
    ∀ (get_ : Lane → List Cell32), (get_ = Lane.q ∨ get_ = Lane.v) → (get_ b).length = (get_ a).length ∧
      ∀ (j : Nat) (k : Cell32), (get_ a)[j]? = some k →
        (k.pend = none → (get_ b)[j]? = some k) ∧
        ∀ i < n, k.pend = some { op := id, word := i, bytes := 15 } → k.poison = none → (get_ b)[j]? = some (Cell32.of (v i))

/-- R103, R213, R214, R220, R221: LOAD_RETURN and WRITE_PERFORMED of one lane's access to core SRAM: a load fills what awaits it and
changes no memory, with what it read where it was performed before (log entry 36); a store writes its bytes and nothing else; an atomic
does both, its old value returned. The lane groups go in ascending order (`Performs.turn`). -/
def Sys2Proof.Claims.ScratchpadPerformed : Prop :=
  ∀ (s : State) (c w : Nat) (x : Warp) (o : Op) (a : Acc), Performs s c w x o a → o.path ≠ 1 → Memory.wf (s.core c).sram = true →
    let m : LaneMask := BitVec.ofNat 64 (2 ^ a.lane)
    let k := s.core c
    (∀ f, o.kind = .load f false → k.badWords = [] → o.acq = false → a.got = none →
      ∃ t y, exec (.loadReturn c w o.id m) s = .next t ∧ t.warp c w = some y ∧ (t.core c).sram = k.sram ∧ t.mem = s.mem ∧
        (y.ops.all fun z => z.id != o.id || !z.accs.any fun e => e.lane == a.lane) = true ∧
        Filled x y o.id a.lane (wordsOf f) (loadedWord f (k.sramRead a.pa a.size))) ∧
    (∀ f b, o.kind = .load f false → a.got = some (b, none) →
      ∃ t y, exec (.loadReturn c w o.id m) s = .next t ∧ t.warp c w = some y ∧ (t.core c).sram = k.sram ∧ t.mem = s.mem ∧
        Filled x y o.id a.lane (wordsOf f) (loadedWord f b)) ∧
    (∀ l : List Byte, o.kind = .store → a.data = indexed l →
      ∃ t y, exec (.writePerformed c w o.id m) s = .next t ∧ t.warp c w = some y ∧ t.mem = s.mem ∧ y.lanes = x.lanes ∧
        (∀ j < l.length, memGet (t.core c).sram (a.pa + j) = l.getD j 0) ∧
        ∀ j, (j < a.pa ∨ a.pa + l.length ≤ j) → memGet (t.core c).sram j = memGet k.sram j) ∧
    ∀ fn, o.kind = .atom fn false → k.badWords = [] → (∀ e ∈ o.accs, e.lane < a.lane → e.pa ≠ a.pa) →
      let old := ofBytes (k.sramRead a.pa 4)
      ∃ t y, exec (.writePerformed c w o.id m) s = .next t ∧ t.warp c w = some y ∧ t.mem = s.mem ∧
        ((t.core c).sramRead a.pa 4) = toBytes 4 (atomFn fn 32 old a.opnd a.cmp) ∧
        (∀ j, (j < a.pa ∨ a.pa + 4 ≤ j) → memGet (t.core c).sram j = memGet k.sram j) ∧
        Filled x y o.id a.lane 1 fun _ => BitVec.ofNat 32 old

/-- R220, R238, R247 to R250: LOAD_RETURN and WRITE_PERFORMED of one lane's access to global memory, which waits while its read or write
may not be performed; a read that was performed before returns what it read then (R240, R256; log entry 36). -/
def Sys2Proof.Claims.GlobalPerformed : Prop :=
  ∀ (s : State) (c w : Nat) (x : Warp) (o : Op) (a : Acc), Performs s c w x o a → o.path = 1 → a.type < 3 →
    let m : LaneMask := BitVec.ofNat 64 (2 ^ a.lane)
    let who := s.whoOf c x
    (∀ f b, o.kind = .load f false → a.got = some (b, none) →
      ∃ t y, exec (.loadReturn c w o.id m) s = .next t ∧ t.warp c w = some y ∧ t.mem = s.mem ∧
        Filled x y o.id a.lane (wordsOf f) (loadedWord f b)) ∧
    (∀ f, o.kind = .load f false → o.acq = false → a.got = none →
      (s.load who a.type a.hs a.pa a.size (a.keyIdx) = none → exec (.loadReturn c w o.id m) s = .next s) ∧
      ∀ u b, s.load who a.type a.hs a.pa a.size (a.keyIdx) = some (u, b, none) →
        ∃ t y, exec (.loadReturn c w o.id m) s = .next t ∧ t.warp c w = some y ∧ t.mem = u.mem ∧
          Filled x y o.id a.lane (wordsOf f) (loadedWord f b)) ∧
    (o.kind = .store →
      (s.store who a.type a.hs a.pa a.data (a.keyIdx) = none → exec (.writePerformed c w o.id m) s = .next s) ∧
      ∀ u, s.store who a.type a.hs a.pa a.data (a.keyIdx) = some u →
        ∃ t y, exec (.writePerformed c w o.id m) s = .next t ∧ t.warp c w = some y ∧ t.mem = u.mem ∧ y.lanes = x.lanes) ∧
    ∀ fn, o.kind = .red fn → (∀ e ∈ o.accs, e.lane < a.lane → e.pa ≠ a.pa) →
      ∀ u old, s.rmw who a.type a.hs a.pa 4 (a.keyIdx) (fun v => redFn fn v a.opnd) = some (u, old, none) →
        ∃ t y, exec (.writePerformed c w o.id m) s = .next t ∧ t.warp c w = some y ∧ t.mem = u.mem ∧ y.lanes = x.lanes

/-- R218, R223: RING_PERFORM. The first push that waits at a ring is performed as one whole when all its words fit, its words entering
in lane order; the first pop when all its words are there, from the head. -/
def Sys2Proof.Claims.RingsPerformed : Prop :=
  ∀ (s : State) (c r w : Nat) (x : Warp) (o : Op) (push : Bool),
    (s.core c).ringWait.find? (fun e => e.1 == r && e.2.1 == push) = some (r, push, w, o.id) → s.warp c w = some x →
    x.ops.find? (fun z => z.id == o.id) = some o →
    let k := s.core c
    let i : Instr := .ringPerform c r push
    (∀ e, o.kind = .push r e →
      (4096 < (k.ring r).length + o.accs.length * e → exec i s = .next s) ∧
      ((k.ring r).length + o.accs.length * e ≤ 4096 → ∃ t, exec i s = .next t ∧ (t.core c).ring r = k.ring r ++ o.pushed ∧
        (∀ n, n ≠ r → (t.core c).ring n = k.ring n) ∧ (∀ z ∈ (t.core c).ringWait, z.2.2.2 ≠ o.id) ∧ t.mem = s.mem)) ∧
    ∀ e, o.kind = .pop r e →
      ((k.ring r).length < o.accs.length * e → exec i s = .next s) ∧
      (o.accs.length * e ≤ (k.ring r).length → ∃ t, exec i s = .next t ∧ (t.core c).ring r = (k.ring r).drop (o.accs.length * e) ∧
        (∀ n, n ≠ r → (t.core c).ring n = k.ring n) ∧ (∀ z ∈ (t.core c).ringWait, z.2.2.2 ≠ o.id) ∧ t.mem = s.mem)

/-- R175, R239, R242 to R245, R264: the rows of leases, probes, messages between dies, evictions, fills, the host's sectors and writes
through a port. A lease of a core's L0 and one of its instruction cache end alike (R281). A copy whose dirty bytes fall in a sector that
the host owns waits for the host (R245). -/
def Obligations.CoherenceRows : Prop :=
  (∀ (s : State) (c line : Nat), let k := s.core c
    let now := s.timeOf (coreDie c)
    let kept (l : List (Nat × Nat)) (ends : Nat → Prop) (r : List (Nat × Nat)) : Prop :=
      ∀ e : Nat × Nat, e ∈ r ↔ e ∈ l ∧ ¬ (e.1 = line ∧ ends e.2)
    (∃ u, exec (.leaseExpiry c line) s = .next u ∧ kept k.leases (fun t => t ≤ now) (u.core c).leases ∧
      kept k.ileases (fun t => t ≤ now) (u.core c).ileases ∧ u.mem = s.mem) ∧
    ∃ u, exec (.revokeProbe c line) s = .next u ∧ kept k.leases (fun t => now + 128 < t) (u.core c).leases ∧
      kept k.ileases (fun t => now + 128 < t) (u.core c).ileases ∧ u.mem = s.mem) ∧
  (∀ (s : State) (d cl line : Nat), ∃ u, exec (.coherenceProbe d cl line) s = .next u ∧ (cl, line) ∉ (u.die d).l1 ∧ u.mem = s.mem ∧
    ∀ c < 512, coreDie c = d → coreCluster c = cl → get (u.core c).leases line = none ∧ get (u.core c).ileases line = none) ∧
  (∀ (s : State) (d src : Nat) (m : Msg), d < s.dies.length →
    (s.die d).inbox.find? (fun z => z.src == src && (s.die d).mayApply z) = some m →
    (s.heldBack d 16 m.line = true → exec (.remoteWriteApply d src) s = .next s) ∧
    (s.heldBack d 16 m.line = false → ∃ u, exec (.remoteWriteApply d src) s = .next u ∧ get (u.die d).copies0 m.line = none ∧
      (u.die d).clock = (s.die d).clock.set src (m.stamp.getD src 0) ∧ (u.die d).inbox = (s.die d).inbox.erase m ∧ u.mem = s.mem)) ∧
  (∀ (s : State) (d line : Nat), ∃ u, exec (.l2Eviction d line) s = .next u ∧ get (u.die d).copies0 line = none ∧
    (∀ e ∈ (u.die d).decoded, e.1 % 2 ^ 46 ≠ line) ∧
    ((∀ z ∈ (s.die d).copies1, z.line = line → z.dirty = 0) → (∀ z ∈ (u.die d).copies1, z.line ≠ line) ∧ u.mem = s.mem) ∧
    ∀ z ∈ (s.die d).copies1, z.line = line → z.dirty ≠ 0 → (∀ e ∈ (s.die d).copies1, e.line = line → e = z) →
      let waits := z.hs = true ∧ ∃ e ∈ z.dirtyBytes, s.hostOwns line e.1 = true
      (waits → z ∈ (u.die d).copies1 ∧ u.mem = s.mem) ∧
      (¬ waits → (∀ e ∈ (u.die d).copies1, e.line ≠ line) ∧ u.mem = (s.writeBack (s.sliceWho d z.part) line).mem)) ∧
  (∀ (s : State) (d line off : Nat) (z : Copy1), d < s.dies.length → off < 128 →
    (s.die d).copies1.find? (fun e => e.line == line && (get e.bytes off).isNone) = some z →
    ((s.portDown (128 * line) = true ∨ line ∈ s.badLines) → exec (.type1Fill d line off) s = .next s) ∧
    (s.portDown (128 * line) = false → line ∉ s.badLines → ∃ u e, exec (.type1Fill d line off) s = .next u ∧ u.mem = s.mem ∧ (u.die d).copies1.head? = some e ∧ e.line = line ∧ e.dirty = z.dirty ∧
      get e.bytes off = some (s.fillByte z off))) ∧
  (∀ (s : State) (line sector : Nat), region (128 * line) = 2 → inAperture (128 * line) = false → sector < 2 →
    (s.sectorsOf line).length = 2 →
    let up := (s.portOf (128 * line)).any (fun e => e.2.2) = true
    (∀ g, ¬ up → exec (.hostSectorGrant line sector g) s = .next s) ∧
    (up → (s.sectorsOf line).getD sector none = none → ∃ u, exec (.hostSectorGrant line sector true) s = .next u ∧ u.mem = s.mem ∧
      (u.sectorsOf line).getD sector none = some (memRead s.mem (128 * line + 64 * sector) 64)) ∧
    (up → (s.sectorsOf line).getD sector none ≠ none → ∃ u, exec (.hostSectorGrant line sector false) s = .next u ∧ u.mem = s.mem ∧
      (u.sectorsOf line).getD sector none = none ∧ u.lineWrites line = s.lineWrites line + 1)) ∧
  ∀ (s : State) (port pa n : Nat) (data : DWord), ((s.die (port / 4)).ports.getD (port % 4) (false, 0)).1 = true → 0 < n → n ≤ 8 →
    pa % 128 + n ≤ 128 → inAperture pa = false → s.populated pa = true →
    ∀ u, s.store (portWho port) 2 false pa (indexed (toBytes n data.toNat)) none = some u → exec (.fradonInbound port pa n data) s = .next u


/-! ### Rows of slots, barriers and tasks (R22, R89, R91, R93, R177, R178, R182, R185 to R193) -/

/-- R28, R89, R91, R93, R198, R269: a barrier's phase completes, a blocked JOIN returns, a WAITV looks again, and slots are released and
returned. A parked context that has given up its slot is an absent member of its entries (log entry 74). -/
def Sys2Proof.Claims.SlotRows : Prop :=
  (∀ (s : State) (c g : Nat) (e : Group), (s.core c).groups[g]? = some e → e.carried = [] → e.results = [] →
    (∀ a ∈ e.absent, a.2.carried = none) →
    (s.phaseDone c e = false → ∃ t, exec (.barrierPhaseComplete c g) s = .next t ∧ t.mem = s.mem ∧ (t.core c).groups[g]? = some e) ∧
    (s.phaseDone c e = true → let absent := e.absent.map fun a => (a.1, { a.2 with arrived := false })
      ∃ t, exec (.barrierPhaseComplete c g) s = .next t ∧ t.mem = s.mem ∧
      (t.core c).groups[g]? = some { e with phase := e.phase + 1, arrived := 0, due := [], absent := absent } ∧
      ∀ w x p, w < 64 → e.members.getLsbD w = true → s.warp c w = some x → x.status = .running → x.launch = e.launch → x.b = none →
        x.a = some p → p.wait = .phase e.image e.phase →
        t.warp c w = some (({ x with a := some { p.unbuffer with wait := .none } } : Warp).advance false))) ∧
  (∀ (s : State) (c w : Nat) (b : Bool) (x : Warp) (p : Split) (f : Fmt3) (h : DWord) (order core e : Nat) (u : Future),
    s.warp c w = some x → x.split b = some p → p.wait = .join f h order → x.unheld b = true →
    s.named x h true true = .ok (.entry core e u) →
    let seen := covers (s.die (coreDie c)).clock u.stamped = true ∧ s.joinBefore h order = false
    let z : Cur := { core := c, slot := w, b := b }
    ((u.st = .resolved ∨ u.st = .cancelled) → seen → exec (.joinResume c w b) s =
      .next ((s.updFut (s.tenantOf x.launch) core e fun v => { v with st := .free }).putWarp z
        (({ x with asks := false } : Warp).joined b f.nw f.d.toNat u.value))) ∧
    (u.st = .failed → seen → exec (.joinResume c w b) s = .next (s.take z (Trap.of u.cause u.info) (wordOf (.join f)))) ∧
    ((u.st = .staging ∨ u.st = .running ∨ u.st = .draining ∨ u.st = .engine) → core ≠ c → exec (.joinResume c w b) s = .next s)) ∧
  (∀ (s : State) (c w line n : Nat) (b : Bool) (x : Warp) (p : Split), s.warp c w = some x → x.split b = some p → p.wait = .waitv line n →
    ((get s.writes line).getD 0 = n → exec (.waitvWake c w b) s = .next s) ∧
    ((get s.writes line).getD 0 ≠ n → exec (.waitvWake c w b) s = .next (s.setWarp c w (x.setSplit b (some { p with wait := .again }))))) ∧
  (∀ (s : State) (c w : Nat) (z : Slot) (x : Warp) (e : Launch), c < 512 → s.slot c w = some z → z.warp = some x → x.status = .ended →
    s.launch z.launch = some e → e.errAt = none → z.use ≠ .draining →
    (x.ops ≠ [] → exec (.slotRelease c w) s = .next s) ∧
    (x.ops = [] → (s.core c).batchesDone w = true → ∃ t y, exec (.slotRelease c w) s = .next t ∧ t.slot c w = some y ∧ y.use = .free ∧
      y.warp = none ∧ y.wg = none ∧ y.launch = z.launch ∧ t.mem = s.mem)) ∧
  ∀ (s : State) (c l : Nat),
    (s.mayReturn c l = false → exec (.slotReturn c l) s = .next s) ∧
    (s.mayReturn c l = true → ∃ t, exec (.slotReturn c l) s = .next t ∧ (s.ended l = false → t.mem = s.mem) ∧
      (∀ z ∈ (t.core c).slots, z.2.launch ≠ l) ∧ (∀ z ∈ (t.core c).groups, z.launch ≠ l) ∧
      (∀ z ∈ (s.core c).slots, z.2.launch ≠ l → z ∈ (t.core c).slots) ∧
      ((∀ z ∈ (s.core c).slots, z.2.launch = l) → (t.core c).modeVec = none ∧ (t.core c).rings = [] ∧ (t.core c).matrix = Matrix.clear))

/-- R177, R178, R182, R185 to R192: pops, steals and their answers, arrivals, and staging ahead. -/
def Obligations.DequeRows : Prop :=
  (∀ (s : State) (c w : Nat) (z : Slot) (q : Closure), s.slot c w = some z → (s.core c).mayPop w z = true → (s.core c).retire = false →
    s.runsLaunch z.launch = true → ((s.core c).closures (s.tenantOf z.launch)).reverse.find? (fun e => e.launch == z.launch) = some q →
    tileCount q.words = 0 →
    ∃ t y u, exec (.ownerPop c w) s = .next t ∧ t.slot c w = some y ∧ y.use = .runnable ∧ y.task = some u ∧ u.words = q.words ∧
      u.stolen = false ∧ u.handle = q.handle ∧ t.mem = s.mem ∧ ∀ e ∈ (t.core c).dequeOf (s.tenantOf z.launch), e.isFor q.core q.entry = false) ∧
  (∀ (s : State) (c w : Nat) (z : Slot), c < 512 → s.slot c w = some z → s.runsLaunch z.launch = true → s.maySteal c = true →
    (s.core c).mayPop w z = true → s.victims c ≠ [] → (∀ e, (s.core c).stealOf w = some e → e.until_ ≤ s.timeOf (coreDie c)) →
    ∃ t y v, exec (.stealRotation c w) s = .next t ∧ t.slot c w = some y ∧ y.use = .reserved ∧ (t.core c).stealOf w = some v ∧ t.mem = s.mem ∧
      ((s.core c).stealOf w = none → v.asked = (s.victims c).head? ∧ v.bytes = (s.core c).ringFree)) ∧
  (∀ (s : State) (c thief w : Nat) (e : Steal) (z : Slot), s.asking c = [(thief, w)] → thief ≠ c → (s.core thief).stealOf w = some e →
    s.slot thief w = some z →
    let r := s.stealAnswer c thief z.launch e.bytes
    ∃ t, exec (.stealRequest c) s = .next t ∧ (t.core thief).stealOf w = some { e with answer := some r } ∧ t.mem = s.mem ∧
      ∀ q, r = some q → ∀ v ∈ (t.core c).dequeOf (s.tenantOf z.launch), v.isFor q.core q.entry = false) ∧
  (∀ (s : State) (c w : Nat) (e : Steal) (q : Closure), (s.core c).stealOf w = some e → e.answer = some (some q) →
    ∃ t, exec (.stealAnswer c w) s = .next t ∧ (t.core c).stealOf w = none ∧ t.mem = s.mem ∧
      (t.core c).arrivals = (s.core c).arrivals ++ [(w, { q with allot := none })]) ∧
  (∀ (s : State) (c w : Nat) (q : Closure) (z : Slot), get (s.core c).arrivals w = some q → s.slot c w = some z →
    (q.cancelled = true →
      ∃ t y, exec (.closureArrival c w) s = .next t ∧ t.slot c w = some y ∧ y.use = .free ∧ y.task = none ∧ t.mem = s.mem ∧
        get (t.core c).arrivals w = none) ∧
    (q.cancelled = false → tileCount q.words = 0 →
      ∃ t y u, exec (.closureArrival c w) s = .next t ∧ t.slot c w = some y ∧ y.use = .runnable ∧ y.task = some u ∧ u.words = q.words ∧
        u.stolen = true ∧ u.xstolen = (coreDie q.core != coreDie c) ∧ t.mem = s.mem)) ∧
  ∀ (s t : State) (c i id : Nat) (q : Closure), (s.core c).aheadOf[i]? = some q → q.allot = none → s.released c q.due q.stamped = true →
    ((s.core c).asking ≠ [] → exec (.stageAhead c i) s = .next s) ∧
    (s.allotSpace c q.words q.launch = none → exec (.stageAhead c i) s = .next s) ∧
    ((s.core c).asking = [] → s.allotSpace c q.words q.launch = some (t, id) → ∃ u, exec (.stageAhead c i) s = .next u ∧ u.mem = t.mem ∧
      ∀ e ∈ (u.core c).deque, e.isFor q.core q.entry = true → e.allot = some id)

/-- R178, R182, R190, R193, R305: loaders, the start and the end of a task, and the switch between tenants' record areas. A tile's load
reaches the loader of its stack once its next pages have been translated and checked; that loader, which is even in `loaders`, serves
its requests in the order of arrival, a piece at a time (the stack of a line outside region 0 is log entry 88). -/
def Sys2Proof.Claims.TaskRows : Prop :=
  (∀ (s : State) (c a t : Nat) (z : Allot), (s.core c).allotOf a = some z → t ∈ z.tiles → z.fault = none →
    z.movedOf t < tileSize z.words t →
    let i : Instr := .loaderRequest c a t
    let own := s.agentOf (coreDie c) z.launch
    (s.requestAt c a t = none →
      (∀ e, s.tilePieces own z t false = .error e → exec i s = .next (s.setCore c ((s.core c).failTile z t false e.1 e.2))) ∧
      ∀ p l, s.tilePieces own z t false = .ok (p :: l) → let q := 2 * stackOf c p.pa
        exec i s = .next (s.setRequests q (s.requests q ++ [{ core := c, allot := a, tile := t, pieces := [] }]))) ∧
    (∀ q r, s.requestAt c a t = some (q, r) → (s.requests q).head? ≠ some r → exec i s = .next s) ∧
    ∀ q r p l rest, s.requestAt c a t = some (q, r) → q % 2 = 0 → s.requests q = r :: rest → r.pieces = p :: l →
      let drawn := s.drawMeter (sharedMeter (q / 4) (s.tenantOf z.launch)) (s.tenantOf z.launch)
      let moved := z.movedOf t + p.len
      (drawn.load (s.agentOf (q / 4) z.launch) p.type p.hs p.pa p.len p.keyIdx = none → exec i s = .next drawn) ∧
      ∀ u b, drawn.load (s.agentOf (q / 4) z.launch) p.type p.hs p.pa p.len p.keyIdx = some (u, b, none) →
        exec i s = .next ((u.setCore c
          (((u.core c).viewWrite 2 (z.off + tileOff z.words t + z.movedOf t) b).mapAllot a
            fun y => { y with moved := put y.moved t moved })).setRequests q
              (if moved < tileSize z.words t then { r with pieces := l } :: rest else rest))) ∧
  (∀ (s : State) (c a t : Nat) (z : Allot), (s.core c).allotOf a = some z → t ∈ z.tiles → tileSize z.words t ≤ z.movedOf t →
    (∀ e ∈ (s.core c).slots, e.2.task.bind (·.allot) ≠ some a) →
    ∃ u, exec (.tileLoadDone c a t) s = .next u ∧ u.mem = s.mem ∧ ((u.core c).allotOf a).map (·.tiles) = some (z.tiles.erase t)) ∧
  (∀ (s : State) (c w : Nat) (z : Slot) (t : Task) (e : Launch), s.slot c w = some z → z.use = .runnable → z.task = some t →
    s.launch z.launch = some e → e.st = .running →
    ((s.released c t.due t.stamped = false ∨ (s.core c).retire = true) → exec (.taskStart c w) s = .next s) ∧
    (s.released c t.due t.stamped = true → (s.core c).retire = false → ∃ u y x, exec (.taskStart c w) s = .next u ∧ u.mem = s.mem ∧ u.slot c w = some y ∧ y.use = .busy ∧
      y.task = none ∧ y.warp = some x ∧ x.task = t ∧ x.launch = z.launch ∧ x.b = none ∧
      x.a.map (·.pc) = some (e.taskEntry (word t.words 0)) ∧ x.width = e.header.width ∧ x.ops = [] ∧
      ∀ l a, x.lanes[l]? = some a →
        (e.header.width = 16 → (a.q.getD 1 (Cell32.of 0)).v = t.words.getD l 0 ∧ (a.q.getD 0 (Cell32.of 0)).v = t.words.getD (16 + l) 0) ∧
        (e.header.width ≠ 16 → l < 32 → (a.q.getD 0 (Cell32.of 0)).v = t.words.getD l 0))) ∧
  (∀ (s : State) (c w : Nat) (z : Slot) (x : Warp), s.slot c w = some z → z.warp = some x → z.use = .draining → x.status = .ended →
    x.dueWrites = [] → x.task.allot = none → tileCount x.task.words = 0 → x.inline = [] →
    let f := x.task.handle.toNat
    ∃ u y, exec (.storerDone c w) s = .next u ∧ u.mem = s.mem ∧ u.slot c w = some y ∧ y.use = .busy ∧
      ((u.core (f / 2 ^ 23 % 512)).fut (s.tenantOf z.launch) (f / 2 ^ 12 % 2048)).st = .resolved ∧
      ((u.core (f / 2 ^ 23 % 512)).fut (s.tenantOf z.launch) (f / 2 ^ 12 % 2048)).value = x.task.result) ∧
  ∀ (s : State) (c t : Nat), (s.core c).tenant ≠ t →
    ∃ u, exec (.tenantSwitch c t) s = .next u ∧ u.mem = s.mem ∧ (u.core c).tenant = t ∧
      (∀ n, (u.core c).dequeOf n = (s.core c).dequeOf n) ∧ ∀ n e, (u.core c).fut n e = (s.core c).fut n e


/-! ### Rows of the engines (R290 to R303) -/

/-- R290 to R303: a command enters its queue or is refused; the operation at a queue's head reads and writes the pieces of its chunks; an
operation that has ended becomes final; a member of a collective that has ended elsewhere fails. That a refused command takes 0x144 is
log entry 57, and the order in which a chunk's sources are read is log entry 59. -/
def Sys2Proof.Claims.EngineRows : Prop :=
  (∀ (s : State) (i : Nat) (o : EngOp), get s.engOps i = some o → o.id = i → o.st = .travelling → o.cancel = false → o.fail = none →
    o.queue < 576 + 512 → (∀ e ∈ s.engOps, e.2.st = .travelling → e.2.warp = o.warp → e.2.queue = o.queue → i ≤ e.1) →
    let q := s.engQueue o.queue
    let target := if o.queue < 512 then o.queue / 4 % 16 else 16
    let admitted := s.admits o.die target (s.issuerMid o) 2 o.dst
    (admitted = false → ∃ t, exec (.engineAccept i) s = .next t ∧ get t.engOps i = some { o with fail := some (0x144, 0) } ∧
      t.engQueues = s.engQueues ∧ t.mem = s.mem) ∧
    (admitted = true → (if o.queue < 512 then 64 else 32) ≤ q.places.length → exec (.engineAccept i) s = .next s) ∧
    (admitted = true → q.places.length < (if o.queue < 512 then 64 else 32) → ∃ t, exec (.engineAccept i) s = .next t ∧
      get t.engOps i = some { o with st := .queued, nth := if o.op = 0x52 then s.collNth o else o.nth } ∧
      (t.engQueue o.queue).places = q.places ++ [.cmd i] ∧ (∀ n, n ≠ o.queue → t.engQueue n = s.engQueue n) ∧ t.mem = s.mem)) ∧
  (∀ (s : State) (i : Nat) (o : EngOp), get s.engOps i = some o → s.engRuns o = false → exec (.engineChunk i) s = .next s) ∧
  (∀ (s : State) (i : Nat) (o : EngOp), get s.engOps i = some o → o.id = i → s.engRuns o = true →
    let r : EngOp := { o with st := .running }
    let s1 := (s.setEng r).drawMeter (64 * o.die + if o.queue < 512 then o.queue / 4 % 16 else 16 + o.part) o.part
    let w := s1.engWho r
    let coll := o.op = 0x52
    let goes (t : State) : Prop := exec (.engineChunk i) s = .next t
    let whole := (coll → s1.mismatch r = false)
    (coll → s1.mismatch r = true → goes (s1.setEng { r with fail := some (0x284, ctlField o.ctl 8 48) })) ∧
    (∀ p l, whole → o.reads = p :: l →
      let got := s1.load w p.type p.hs p.pa p.len p.keyIdx
      (got = none → goes s1) ∧
      (∀ u b z, got = some (u, b, some z) → goes (u.failEng r z.toNat p.va)) ∧
      ∀ u b, got = some (u, b, none) →
        (¬ coll → goes (u.setEng { r with reads := l, buf := o.buf ++ b })) ∧
        (coll → goes (u.setEng { r with reads := l, source := o.source ++ [((p.va + 2 ^ 57 - o.src) % 2 ^ 57, b)] }))) ∧
    (∀ p l, coll → whole → o.reads = [] → o.writes = p :: l → o.buf = [] →
      (s1.collBytes r = none → goes s1) ∧ ∀ b, s1.collBytes r = some b → goes (s1.setEng { r with buf := b })) ∧
    (∀ p l, whole → o.reads = [] → o.writes = p :: l → (coll → o.buf ≠ []) →
      let first := ((p :: l).map (·.len)).sum = o.chunk
      (∀ u e, first → s1.admitPieces w (p :: l) = (u, some e) → goes (u.failEng r e.1 e.2)) ∧
      ∀ t, (first → s1.admitPieces w (p :: l) = (t, none)) → (¬ first → t = s1) →
        (t.writePiece w p (o.buf.take p.len) = none → goes t) ∧
        ∀ u, t.writePiece w p (o.buf.take p.len) = some u →
          ∃ v g, goes v ∧ v.mem = u.mem ∧ get v.engOps i = some g ∧ g.writes = l ∧ g.buf = o.buf.drop p.len ∧
            g.done = (if l = [] then o.done + o.chunk else o.done) ∧ g.fail = none) ∧
    (whole → o.reads = [] → o.writes = [] → (o.total ≤ o.done ∨ o.cancel = true ∨ (coll ∧ s1.peerEnded r = true)) → goes s1) ∧
    (coll → whole → o.reads = [] → o.writes = [] → o.done < o.total → o.cancel = false → s1.peerEnded r = false →
      goes (s1.startCollChunk r)) ∧
    (o.op = 0x50 ∨ o.op = 0x51 → o.reads = [] → o.writes = [] → o.done < o.total → o.cancel = false →
      let row := ctlField o.ctl 24 0
      let two := o.op = 0x51
      let line := if two then o.done / row else 0
      let at_ := if two then o.done % row else o.done
      let len := if two then row else ctlField o.ctl 12 24 * 2 ^ 24 + ctlField o.ctl 24 0
      let dst := (o.dst + line * ctlField o.pitch 32 0 + at_) % 2 ^ 57
      let src := (o.src + line * ctlField o.pitch 32 32 + at_) % 2 ^ 57
      let n := min (len - at_) (4096 - dst % 4096)
      (∀ e, s1.engPieces w .read src (linePieces src n) = .error e → goes (s1.failEng r e.1 e.2)) ∧
      ∀ rs, s1.engPieces w .read src (linePieces src n) = .ok rs →
        (∀ e, s1.engPieces w .write dst (linePieces dst n) = .error e → goes (s1.failEng r e.1 e.2)) ∧
        ∀ ws, s1.engPieces w .write dst (linePieces dst n) = .ok ws →
          goes (s1.setEng { r with reads := rs, writes := ws, chunk := n, buf := [] }))) ∧
  (∀ (s : State) (i : Nat) (o : EngOp), get s.engOps i = some o → o.id = i → (∀ ok, o.st ≠ .gone ok) → o.op ≠ 0x52 →
    let i' : Instr := .engineResolve i
    let ends (st : FutState) (v cause info : Nat) : Prop := ∃ t, exec i' s = .next t ∧ get t.engOps i = none ∧
      ∀ c e, o.fut = some (c, e) → ((s.core c).fut o.part e).orphan = false →
        ((t.core c).fut o.part e).st = st ∧ ((t.core c).fut o.part e).value = BitVec.ofNat 64 v ∧ ((t.core c).fut o.part e).cause = cause ∧
        ((t.core c).fut o.part e).info = info
    (s.applied o.stamped = false → exec i' s = .next s) ∧
    (s.applied o.stamped = true →
      (∀ z, o.fail = some z → o.pkt = none → ends .failed 0 z.1 z.2) ∧
      (o.fail = none → o.st ≠ .running → o.cancel = true → ends .cancelled 0 0 0) ∧
      (o.fail = none → o.st ≠ .running → o.cancel = false → exec i' s = .next s) ∧
      (o.fail = none → o.st = .running → (o.reads ≠ [] ∨ o.writes ≠ []) → exec i' s = .next s) ∧
      (o.fail = none → o.st = .running → o.reads = [] → o.writes = [] → o.total ≤ o.done → ends .resolved o.done 0 0) ∧
      (o.fail = none → o.st = .running → o.reads = [] → o.writes = [] → o.done < o.total → o.cancel = true → ends .cancelled o.done 0 0))) ∧
  ∀ (s : State) (i : Nat) (o : EngOp), get s.engOps i = some o → o.op = 0x52 → o.fail = none →
    ((∀ m ∈ o.members, ∀ e, s.peer o m = some e → e.st ≠ .gone false) → exec (.collPeerEnd i) s = .next s) ∧
    ((o.st = .queued ∨ o.st = .running) →
      (∃ m ∈ o.members, ∃ e, s.peer o m = some e ∧ e.id ≠ o.id ∧ e.st = .gone false) →
      exec (.collPeerEnd i) s = .next (s.setEng { o with
        fail := some (if s.mismatch o then 0x284 else 0x285, ctlField o.ctl 8 48), writes := [], reads := [] }))

/-! ### Rows of the array (R309, R315 to R323) -/

/-- R309, R314, R317, R318, R321, R323: the array performs part of the operation at the head of its queue, stops at a row whose selector the
hand does not hold, or, where the owner has no handler, abandons the operation and owes it the cause, and is cleared once its owner has
left the core. One unit or all that are left are performed at once by the model's choice (log entries 19 and 49). -/
def Sys2Proof.Claims.ArrayRows : Prop :=
  (∀ (s : State) (c : Nat) (o : MatOp) (l : List MatOp),
    let k := s.core c
    let i : Instr := .matrixRow c
    k.matrix.queue = o :: l →
    (k.matrix.stall.stalled = true → s.ownerLives c k.matrix.stall.owner = true → exec i s = .next s) ∧
    (k.matrix.stall.stalled = true → s.ownerLives c k.matrix.stall.owner = false →
      exec i s = .next (s.setCore c { k with matrix := k.matrix.abandon })) ∧
    (k.matrix.stall.stalled = false → s.matReady c o = false → exec i s = .next s) ∧
    (k.matrix.stall.stalled = false → s.matReady c o = true →
      let needs := o.op = 0 ∨ o.op = 10 ∨ (o.op = 1 ∧ o.c.getLsbD 49 = false)
      (∀ r rest, needs → o.rows = r :: rest → get k.matrix.hand r.sel = none →
        let w := o.slots.getD r.member 0
        s.ownerLives c w = true → s.hasTrap c w = true → ∃ t, exec i s = .next t ∧ t.mem = s.mem ∧ (t.core c).sram = k.sram ∧
          (t.core c).matrix.queue = k.matrix.queue ∧ (t.core c).matrix.stall.stalled = true ∧ (t.core c).matrix.stall.lost = false ∧
          (t.core c).matrix.stall.owner = w ∧ (t.core c).matrix.stall.sel = r.sel ∧ (t.core c).matrix.stall.row = r.pos ∧
          (t.core c).matrix.stall.member = r.member ∧ (t.core c).matrix.stall.lane = r.lane ∧ (t.core c).matrix.stall.word = o.word ∧
          (t.core c).matrix.stall.taken = false) ∧
      (∀ r rest, needs → o.rows = r :: rest → get k.matrix.hand r.sel = none →
        let w := o.slots.getD r.member 0
        (s.ownerLives c w = false ∨ s.hasTrap c w = false) → ∃ t, exec i s = .next t ∧ t.mem = s.mem ∧ (t.core c).sram = k.sram ∧
          (t.core c).matrix.queue = l ∧ (t.core c).matrix.stall.stalled = false ∧ (t.core c).matrix.stall.lost = true ∧
          (t.core c).matrix.stall.owner = w ∧ (t.core c).matrix.stall.taken = true ∧
          ∀ x, s.warp c w = some x → x.status = .running → ∃ y, t.warp c w = some y ∧ y.miss ≠ none) ∧
      (∀ r rest suit, o.op ≤ 3 ∨ o.op = 10 → o.rows = r :: rest → (needs → get k.matrix.hand r.sel = some suit) → (¬ needs → suit = 0) →
        let all := if o.op = 10 then 4096 else 64
        o.at_ < all → ∃ n t, (n = 1 ∨ n = all - o.at_) ∧ exec i s = .next t ∧ t.mem = s.mem ∧
          (t.core c).sram = ((List.range n).foldl (fun k j => k.matElem o r suit (o.at_ + j)) k).sram ∧
          (t.core c).matrix.queue = (if o.at_ + n < all then { o with at_ := o.at_ + n } :: l
            else if rest = [] then l else { o with at_ := 0, rows := rest } :: l)) ∧
      (∀ n, o.op = 11 → o.b.toNat = 4 * n → o.at_ < n → ∃ d t, (d = 1 ∨ d = n - o.at_) ∧ exec i s = .next t ∧ t.mem = s.mem ∧
        (t.core c).matrix.queue = (if o.at_ + d < n then { o with at_ := o.at_ + d } :: l else l) ∧
        (t.core c).sram = ((List.range d).foldl (fun k j => k.matWrite o.view (o.a.toNat + 4 * (o.at_ + j)) [0, 0, 0, 0]) k).sram))) ∧
  (∀ (k : Core) (o : MatOp) (r : Row) (suit e : Nat),
    let b := o.b.toNat
    let row := r.index.toNat / 2 ^ 16
    let ea := (if o.op = 10 then o.a.toNat + 128 * ctlField o.c 16 32 + 16384 * suit + 4 * e
      else if o.op = 1 then b + 256 * e + 4 * row else b + 256 * row + 4 * e) % 2 ^ 32
    ∀ p, placeOf r.view ea = some p → Memory.wf k.sram = true →
      (∀ j < 4, memGet (k.matElem o r suit e).sram (p + j) =
        (toBytes 4 (k.matrix.newElem o r suit e (ofBytes (k.sramRead p 4)))).getD j 0) ∧
      ∀ a, (a < p ∨ p + 4 ≤ a) → memGet (k.matElem o r suit e).sram a = memGet k.sram a) ∧
  (∀ (s : State) (c l : Nat),
    let k := s.core c
    k.matrix.owner = some l →
    (((∃ t ∈ k.slots, t.2.launch = l) ∨ k.matrix.queue ≠ []) → exec (.arrayClear c) s = .next s) ∧
    ((∀ t ∈ k.slots, t.2.launch ≠ l) → k.matrix.queue = [] → ∃ t, exec (.arrayClear c) s = .next t ∧ t.mem = s.mem ∧
      (t.core c).matrix.suits = [] ∧ (t.core c).matrix.hand = [] ∧ (t.core c).matrix.stall.stalled = false ∧
      (k.matrix.heldSince = [] → (t.core c).matrix.owner = none) ∧
      (∀ n r, k.matrix.heldSince = n :: r → (∃ z ∈ k.slots, z.2.launch = n) → (t.core c).matrix.owner = some n) ∧
      (t.core c).sram = k.sram)) ∧
  ∀ (s : State) (c w : Nat) (u : Cur) (x : Warp) (ms : List Member),
    let i : Instr := .gangRendezvous c w
    let k := s.core c
    let slots := x.gangSlots w
    let here := slots.filterMap (s.latched c)
    s.latched c w = some u → s.warp c w = some x → slots.Nodup →
    (∀ v, slots.find? (fun z => !s.present c z) = some v → here = [u] → ∀ m, s.member u 0 = some m →
      exec i s = .next (s.take u (Trap.of 0x244 v) m.word)) ∧
    ((∀ v ∈ slots, s.present c v = true) →
      (here.length ≠ slots.length → exec i s = .next s) ∧
      (here.length = slots.length → s.membersOf here = some ms →
        let live := ms.filter (·.g)
        let left (t : State) (id : List Nat) : Prop := ∀ m ∈ ms, t.warp c m.cur.slot =
          some (({ m.warp with openOps := m.warp.openOps ++ id }.setSplit m.cur.b (some { m.split with wait := .none })).advance m.cur.b)
        (live = [] → ∃ t, exec i s = .next t ∧ left t [] ∧ (t.core c).matrix = k.matrix ∧ (t.core c).sram = k.sram ∧ t.mem = s.mem) ∧
        (∀ h rest, live = h :: rest → s.gangCauses live = none → Machine.gathered ms = false → exec i s = .next s) ∧
        (∀ h rest, live = h :: rest → s.gangCauses live = none → Machine.gathered ms = true → ∃ t o, exec i s = .next t ∧
          left t [s.serial] ∧ (t.core c).matrix.queue = k.matrix.queue ++ [o] ∧ o.id = s.serial ∧ o.op = h.op ∧ o.word = h.word ∧
          o.a = h.a ∧ o.b = h.b ∧ o.c = h.c ∧ o.at_ = 0 ∧ o.slots = ms.map (·.cur.slot) ∧
          o.rows = (live.flatMap fun m => ((List.range m.warp.width).filter fun l => m.lanes.getLsbD l).map (s.captureRow m)) ∧
          (t.core c).sram = k.sram ∧ t.mem = s.mem)))


/-! ### Rows of contexts and of debugging (R321, R337, R342, R343, R352 to R355) -/

/-- The boundary of the warp on a slot at which a row delivers (R342): its first split stands blocked at its word, or the word there has
been fetched without a cause, which leaves the state t and the warp y, with the split q. -/
structure Sys2Proof.Claims.Boundary (s t : State) (c w : Nat) (x y : Warp) (q : Split) : Prop where
  warp : s.warp c w = some x
  first : ∃ p, x.split x.first = some p ∧
    if p.blocked then t = s else ∃ i l, s.atPc { core := c, slot := w, b := x.first } = .ready t i l
  now : t.warp c w = some y
  same : y.first = x.first
  split : y.split y.first = some q
  running : y.status = .running
  outside : y.frozen = none
  core : y.fw = none

/-- R321, R323, R337, R342, R343, R354: what ASYNC_DELIVERY delivers, in its order: the cause of an operation of its that the array
abandoned, or a stall's to its owner, then the first pending pre-emption cause, once the warp's batches are complete; and the requests
for the causes. Without a handler the core saves the warp once it has drained, its ring operations withdrawn (log entry 52). -/
def Sys2Proof.Claims.PreemptionRows : Prop :=
  (∀ (s t : State) (c w : Nat) (x y : Warp) (q : Split), Boundary s t c w x y q → y.debug = .none →
    let i : Instr := .asyncDelivery c w
    let u : Cur := { core := c, slot := w, b := y.first }
    let k := t.core c
    let owed := k.matrix.stall.taken = false ∧ k.matrix.stall.owner = w
    let due : Option Nat := if 0x3C1 ∈ y.req then some 0x3C1 else if 0x3C2 ∈ y.req then some 0x3C2 else if 0x301 ∈ y.req then some 0x301
      else if 0x302 ∈ y.req ∧ t.resident c w = true then some 0x302 else none
    let complete := ∀ o ∈ k.matrix.queue, w ∉ o.slots
    (∀ m, y.miss = some m → exec i s = .next ((t.putWarp u { y with miss := none }).take u (Trap.of 0x243 m.1) m.2)) ∧
    (y.miss = none → owed → exec i s = .next ((t.setCore c { k with
      matrix := { k.matrix with stall := { k.matrix.stall with taken := true } } }).take u (Trap.of 0x243 k.matrix.stall.info)
        k.matrix.stall.word)) ∧
    (y.miss = none → ¬ owed → (¬ complete ∨ due = none) → exec i s = .next s) ∧
    ∀ r, y.miss = none → ¬ owed → complete → due = some r →
      (∀ entry, (t.launch y.launch).bind Launch.trapEntry = some entry → ∃ z v, exec i s = .next (t.putWarp u z) ∧
        z.tcause = BitVec.ofNat 64 (r + 2 ^ 12 + (if y.first then 2 ^ 13 else 0)) ∧ z.tpc = q.pc.zeroExtend 64 ∧ z.tmask = q.mask ∧
        z.tinfo = 0 ∧ z.a = some (Split.start entry q.mask) ∧ z.b = none ∧ z.req = y.req.filter (fun e => e != r) ∧
        z.frozen = some v ∧ v.cause = r ∧ v.a = y.a ∧ v.b = y.b ∧ v.inB = y.first) ∧
      ((t.launch y.launch).bind Launch.trapEntry = none → let z := t.withdrawRings u y
        z.1.drained u z.2 = false → exec i s = .next z.1)) ∧
  (∀ (s : State) (c w : Nat) (x : Warp), c < 512 → s.warp c w = some x → x.status = .running →
    exec (.preemptRequest c w) s = .next (s.setWarp c w (if 0x301 ∈ x.req then x else { x with req := x.req ++ [0x301] }))) ∧
  ∀ (s : State) (c l i : Nat), c < 512 →
    let movable := ∃ g ∈ (s.core c).wgs, g.launch = l ∧ g.index = i ∧ g.rings = false ∧ ∀ n ∈ g.xpubs, 2 ≤ n
    (¬ movable → exec (.migrateRequest c l i) s = .next s) ∧
    (movable → ∃ t, exec (.migrateRequest c l i) s = .next t ∧ t.mem = s.mem ∧
      (∀ w z x, s.slot c w = some z → z.warp = some x → z.launch = l → z.wg = some i → x.status = .running →
        t.warp c w = some (if 0x302 ∈ x.req then x else { x with req := x.req ++ [0x302] })) ∧
      ∀ n w z, s.slot n w = some z → (n ≠ c ∨ z.launch ≠ l ∨ z.wg ≠ some i) → t.slot n w = some z)

/-- R355, R95: DEBUG_STOP writes the context of a drained warp and leaves it frozen; DEBUG_RESUME and DEBUG_STEP read it back where DBGCTL
holds their command for the slot, and a context that fails its checks sets RESERR. A step issues one
word (log entry 62). -/
def Sys2Proof.Claims.DebugRows : Prop :=
  (∀ (s t : State) (c w : Nat) (x y : Warp) (q : Split) (b : Bool), Boundary s t c w x y q → x.frozen = none → x.debug = .asked b →
    y.debug = .asked b →
    let i : Instr := .debugStop c w
    let u : Cur := { core := c, slot := w, b := y.first }
    let h := if (y.split b).isSome then b else !b
    let r := t.withdrawRings u y
    let z : Warp := { r.2.freeze 0 with debug := .stopped h }
    (r.1.drained u r.2 = false → exec i s = .next r.1) ∧
    ∀ v m, r.1.drained u r.2 = true → z.frozen = some v → (r.1.putWarp u z).writeCtx u z v (t.ownArea u) true = .done m () →
      exec i s = .next (m.coreStop u)) ∧
  (∀ (s : State) (c w : Nat) (x : Warp), s.warp c w = some x → (x.debug = .none ∨ ∃ h, x.debug = .stopped h) →
    exec (.debugStop c w) s = .next s) ∧
  ∀ (s : State) (c w : Nat) (x : Warp) (z : Frozen) (b step : Bool), s.warp c w = some x → x.frozen = some z → x.debug = .stopped b →
    let i : Instr := if step then .debugStep c w else .debugResume c w
    let u : Cur := { core := c, slot := w, b := false }
    let k := s.core c
    (¬ (ctlField k.dbg 2 16 = (if step then 3 else 2) ∧ ctlField k.dbg 6 18 = w) → exec i s = .next s) ∧
    (ctlField k.dbg 2 16 = (if step then 3 else 2) → ctlField k.dbg 6 18 = w →
      (s.readCtx u x z (s.ownArea u) = .wait → exec i s = .next s) ∧
      (∀ t e, s.readCtx u x z (s.ownArea u) = .cause t e → ∃ r, exec i s = .next r ∧ ctlField (r.core c).dbg 2 16 = 0 ∧
        (r.core c).dbg.getLsbD 4 = true ∧ ctlField (r.core c).dbg 6 18 = ctlField ((s.keepLog t).core c).dbg 6 18) ∧
      ∀ t y v, s.readCtx u x z (s.ownArea u) = .done t y → y.frozen = some v → (t.slot c w).isSome →
        let a := y.unfreeze v
        ∃ r, exec i s = .next r ∧ ctlField (r.core c).dbg 2 16 = 0 ∧ (r.core c).dbg.getLsbD 4 = false ∧
          r.warp c w = some { a with debug := if step then .stepping b false else .none })

/-- R352 to R354: CONTEXT_RESTORE. A parked root warp goes back to its slot with its context loaded, and a parked task to a free slot of its
launch; while a check of R350 refuses it with 0x303, it stays parked as it was (log entry 51). A workgroup all of whose warps are parked
has been lifted from its core, and goes to a core that has room (log entry 74). -/
def Sys2Proof.Claims.ContextRestores : Prop :=
  ∀ (s : State) (i c w : Nat) (e : Parked) (l : Launch), get s.parked i = some e → s.launch e.launch = some l →
    let j : Instr := .contextRestore i c w
    let ready := l.st = .running ∧ s.merges l.part = false ∧ s.applied e.warp.stamped = true ∧
      s.caughtUp (coreDie c) (coreDie e.core) = true ∧ c < 512 ∧ s.partOf c = some l.part ∧ (s.core c).retire = false ∧
      (s.die (coreDie c)).up = true
    let lifted := e.wg.isSome = true ∧ e.out = true
    let takes (t : Slot) : Prop :=
      if e.wg.isSome then c = e.core ∧ w = e.slot ∧ t.use = .parked ∧ t.launch = e.launch else s.takesTask e c w t = true
    (¬ ready → exec j s = .next s) ∧
    (ready → ¬ lifted → (∀ t, s.slot c w = some t → ¬ takes t) → exec j s = .next s) ∧
    (∀ t z, ready → ¬ lifted → s.slot c w = some t → takes t → e.warp.frozen = some z →
      let u : Cur := { core := c, slot := w, b := false }
      (∀ v n, s.readCtx u e.warp z e.area = .cause v n → n.cause = 0x303 → exec j s = .next s) ∧
      ∀ v y r, s.readCtx u e.warp z e.area = .done v y → y.frozen = some r → ∃ t' a, exec j s = .next t' ∧ get t'.parked i = none ∧
        t'.slot c w = some a ∧ a.use = .busy ∧ a.area = e.base ∧ a.warp = some { y.thaw r with status := .running }) ∧
    ∀ g, ready → lifted → e.wg = some g →
      let kept := s.lifted.find? fun r => r.launch == e.launch && r.index == g
      let may (r : Lifted) : Prop := s.mayMove r c = true ∧ s.accepts c = true ∧ s.fits c e.launch l l.header.wgWarps = true ∧
        s.phasesHold e.launch r.core c = true
      ((∀ r, kept = some r → ¬ may r) → exec j s = .next s) ∧
      ∀ r, kept = some r → may r → ∃ t, exec j s = .next t ∧ t.mem = s.mem ∧
        (∀ z ∈ t.lifted, z.launch = e.launch → z.index ≠ g) ∧
        ∀ n p, get s.parked n = some p → p.launch = e.launch → p.wg = some g → ∃ p', get t.parked n = some p' ∧ p'.core = c ∧
          p'.out = false ∧ p'.warp = p.warp ∧ p'.area = p.area ∧ p'.base = p.base


/-! ### Rows of command queues (R300, R359, R360, R364, R375, R381) -/

/-- R360, R375, R390: doorbells and polls. A doorbell is dropped where no port is up, and refused and noted where its function is bound to
no enabled partition; the port that it comes through, where several are up, is the model's choice (log entry 61). A queue reads WPTR and
CTL; with CTL clear it fetches each packet up to WPTR, and a WPTR more than a ring ahead of DONE stops it (log entry 65); a page that
cannot be read stops it with code 3. A slot that holds no queue says that it is stopped with code 1 (log entry 61). -/
def Sys2Proof.Claims.DoorbellRows : Prop :=
  (∀ (s : State) (vf d : Nat), (s.portsUp d = [] → s.doorbell vf d = (s, false)) ∧
    ∀ p, s.portsUp d = [p] → let mid := d * 256 + 0xB0 + p
      (s.bound vf = false → s.doorbell vf d = (s.refuse d (18 + p) mid 2 0, false)) ∧
      (s.bound vf = true → s.admits d 17 mid 2 0 = false → s.doorbell vf d = (s.refuse d 17 mid 2 0, false)) ∧
      (s.bound vf = true → s.admits d 17 mid 2 0 = true → s.doorbell vf d = (s, true))) ∧
  (∀ (s : State) (vf : Nat) (v : DWord), let i := v.toNat % 64
    let hit := s.queues.find? fun e => e.2.vf == vf && e.2.slot == i
    (hit = none → let r := s.doorbell vf (s.emptySlot vf i).die
      exec (.notify vf v) s = .next (if r.2 then r.1.noSlot vf i else r.1)) ∧
    ∀ n q, hit = some (n, q) → let r := s.doorbell vf q.die
      (r.2 = false → exec (.notify vf v) s = .next r.1) ∧
      (r.2 = true →
        (∀ t e, r.1.pageWord q 0x08 = .cause t e → exec (.notify vf v) s = .next (t.stopQueue n q.rptr e.cause 3)) ∧
        ∀ t u w ctl, r.1.pageWord q 0x08 = .done t w → t.pageWord q 0x28 = .done u ctl →
          (ctl.testBit 1 = true → exec (.notify vf v) s = .next { u with queues := put u.queues n { q with notice := some (true, w) } }) ∧
          (ctl.testBit 1 = false → ctl.testBit 0 = true →
            exec (.notify vf v) s = .next { u with queues := put u.queues n { q with notice := some (false, w) } }) ∧
          (ctl.testBit 1 = false → ctl.testBit 0 = false → exec (.notify vf v) s = .next (u.fetchUpTo n w)))) ∧
  ∀ (s : State) (n : Nat) (q : Queue), get s.queues n = some q →
    let i : Instr := .wptrPoll n
    (s.pageWord q 0x08 = .wait → exec i s = .next s) ∧
    (∀ t e, s.pageWord q 0x08 = .cause t e → exec i s = .next (t.stopQueue n q.rptr e.cause 3)) ∧
    ∀ t w, s.pageWord q 0x08 = .done t w → get t.queues n = some q →
      let runs := q.stopped = false ∧ q.flush = none ∧ q.dying = false ∧ (t.part q.part).quiesce = false
      let ahead := (w + 2 ^ 64 - q.done) % 2 ^ 64
      exec i s = .next (t.fetchUpTo n w) ∧
      (¬ runs → t.fetchUpTo n w = t) ∧
      (runs → 2 ^ q.size < ahead → t.fetchUpTo n w = t.stopQueue n q.rptr 0 1) ∧
      (runs → ahead ≤ 2 ^ q.size → w = q.rptr → t.fetchUpTo n w = t) ∧
      (runs → ahead ≤ 2 ^ q.size → w = q.rptr + 1 →
        let a := (q.ring + 64 * (q.rptr % 2 ^ q.size)) % 2 ^ 57
        (∀ u e, t.cpRead (t.queueWho q) a 64 = .cause u e → t.fetchUpTo n w = u.stopQueue n q.rptr e.cause 3) ∧
        ∀ u b, t.cpRead (t.queueWho q) a 64 = .done u b →
          let p : Pkt := { num := q.rptr, bytes := b, started := false, complete := false, discarded := false, launch := none, eng := none,
                           version := if numAt b 0 8 % 256 = 8 then (get t.graphs (q.part, numAt b 9 1)).getD [] else [], params := 0,
                           inner := [], halted := none, mute := false }
          t.fetchUpTo n w = ({ u with queues := put u.queues n { q with rptr := q.rptr + 1, pkts := q.pkts ++ [p] } }).showQueue n)

/-- R364, R375, R406: SKIP, FLUSH, FLUSH_DONE and PACKET_COMPLETION. A packet that has stopped the queue, or whose completion store has
failed, is not counted while it is not skipped. What a SKIP does with a packet that was not fetched, and where another packet has stopped
too, is log entry 64. -/
def Sys2Proof.Claims.QueueProgressRows : Prop :=
  (∀ (s : State) (n w : Nat) (q : Queue), get s.queues n = some q → q.notice = some (false, w) →
    let index := q.status.toNat / 2 ^ 32
    let hit (p : Pkt) : Bool := decide (p.num % 2 ^ 32 = index)
    let ps := q.pkts.map fun p => if hit p then { p with discarded := true } else p
    let skips (r : Queue) : Prop := exec (.skip n) s =
      .next (((({ s with queues := put s.queues n { r with notice := none } } : State).clearCtl q).showQueue n).fetchUpTo n w)
    let runs (r : Queue) : Queue := { r with stopped := false, status := 0 }
    (q.stopped = false → skips q) ∧
    (q.stopped = true → q.pkts.any hit = true → let r := { q with pkts := ps, launches := q.drops (q.pkts.filter hit) }
      ((∀ p ∈ ps, p.discarded = false → p.halted = none) → skips (runs r)) ∧
      ∀ p h, ps.find? (fun p => !p.discarded && p.halted.isSome) = some p → p.halted = some h →
        skips { r with status := statusWord p.num h.1 true h.2 }) ∧
    (q.stopped = true → q.pkts.any hit = false → q.rptr % 2 ^ 32 = index → (∀ p ∈ q.pkts, p.discarded = false → p.halted = none) →
      ∃ p, p.num = q.rptr ∧ p.discarded = true ∧ p.launch = none ∧ p.eng = none ∧ p.inner = [] ∧
        skips (runs { q with rptr := q.rptr + 1, pkts := q.pkts ++ [p] }))) ∧
  (∀ (s : State) (n w : Nat) (q : Queue), get s.queues n = some q → q.notice = some (true, w) →
    let out (p : Pkt) : Bool := decide (p.num < w) &&
      (!p.finished || (q.stopped && decide (p.num % 2 ^ 32 = q.status.toNat / 2 ^ 32)))
    ∃ t r, exec (.flush n) s = .next t ∧ get t.queues n = some r ∧ r.notice = none ∧ r.flush.map (·.1) = some w ∧
      r.pkts = q.pkts.map (fun p => if out p then { p with discarded := true } else p) ∧
      ∀ p ∈ q.pkts, out p = true → ∀ l e, p.launch = some l → s.launch l = some e → e.st = .running →
        (t.launch l).map (·.st) = some .cancelled) ∧
  (∀ (s : State) (n w first : Nat) (q : Queue), get s.queues n = some q → q.flush = some (w, first) →
    (q.pkts ≠ [] → exec (.flushDone n) s = .next s) ∧
    (q.pkts = [] → q.dying = true → ∃ t, exec (.flushDone n) s = .next t ∧ get t.queues n = none ∧ t.mem = s.mem) ∧
    (q.pkts = [] → q.dying = false → ∃ t r, exec (.flushDone n) s = .next t ∧ get t.queues n = some r ∧ r.flush = none ∧ r.rptr = w ∧
      r.done = w ∧ r.stopped = false ∧ r.status.toNat = first % 2 ^ 32 * 2 ^ 32 + 8)) ∧
  ∀ (s : State) (n : Nat) (q : Queue) (p : Pkt) (l : List Pkt), get s.queues n = some q → q.pkts = p :: l →
    let i : Instr := .packetCompletion n
    let counted (t : State) : Prop := ∃ r, get t.queues n = some r ∧ r.done = q.done + 1 ∧ r.pkts = l ∧ r.rptr = q.rptr
    let compl := (numAt p.bytes 0 8).testBit 14
    let scope := numAt p.bytes 0 8 / 2 ^ 8 % 2 ^ 3
    (p.discarded = true → s.packetEnded p = false → exec i s = .next s) ∧
    (p.discarded = true → s.packetEnded p = true → ∃ t, exec i s = .next t ∧ counted t) ∧
    (p.discarded = false → p.finished = false → numAt p.bytes 0 8 % 256 ≠ 7 → exec i s = .next s) ∧
    (p.discarded = false → (p.mute = true ∨ (p.halted ≠ none ∧ numAt p.bytes 0 8 % 256 ≠ 7)) → exec i s = .next s) ∧
    (p.discarded = false → p.mute = false → p.halted = none → p.complete = true → numAt p.bytes 0 8 % 256 ≠ 7 →
      (compl = false → ∃ t, exec i s = .next t ∧ counted t) ∧
      (compl = true → 4 ≤ scope → s.applied (s.queueStamps q n p.num) = false → exec i s = .next s) ∧
      (compl = true → (scope < 4 ∨ s.applied (s.queueStamps q n p.num) = true) →
        let stores := s.cpWrite (s.queueWho q) (numAt p.bytes 48 8 % 2 ^ 57) (p.bytes.drop 56)
        (∀ t e, stores = .cause t e →
          exec i s = .next ((t.stopQueue n p.num e.cause 3).mapPkt n p.num fun p => { p with mute := true })) ∧
        ∀ t, stores = .done t () → get t.queues n = some q → ∃ u, exec i s = .next u ∧ counted u))

/-- R12, R300, R359, R381: QUEUE_CREATE, QUEUE_DESTROY and COMM_SLOT_WRITE. The size of a context pool is log entry 26. -/
def Sys2Proof.Claims.QueueLifeRows : Prop :=
  (∀ (s : State) (n d p vf i root : Nat) (pool : Nat × Nat) (ring size : Nat),
    let bad := get s.queues n ≠ none ∨ 4096 ≤ n ∨ 8 ≤ d ∨ 32 ≤ p ∨ 128 ≤ vf ∨ 63 ≤ i ∨ size < 4 ∨ 15 < size ∨ (s.die d).up = false ∨
      ∃ e ∈ s.queues, e.2.vf = vf ∧ e.2.slot = i
    (bad → exec (.queueCreate n d p vf i root pool ring size) s = .next s) ∧
    (¬ bad → ∃ t q, exec (.queueCreate n d p vf i root pool ring size) s = .next t ∧ get t.queues n = some q ∧ q.die = d ∧ q.part = p ∧
      q.vf = vf ∧ q.slot = i ∧ q.root = root ∧ q.pool = pool.1 ∧ q.poolSize = pool.2 ∧ q.ring = ring / 4096 % 2 ^ 45 * 4096 ∧ q.size = size ∧ q.rptr = 0 ∧
      q.done = 0 ∧ q.stopped = false ∧ q.status = 0 ∧ q.pkts = [] ∧ q.launches = [] ∧ ∀ m, m ≠ n → get t.queues m = get s.queues m)) ∧
  (∀ (s : State) (n : Nat) (q : Queue), get s.queues n = some q →
    (q.dying = true → exec (.queueDestroy n) s = .next s) ∧
    (q.dying = false → q.pkts = [] → ∃ t, exec (.queueDestroy n) s = .next t ∧ get t.queues n = none ∧ t.mem = s.mem) ∧
    (q.dying = false → q.pkts ≠ [] → ∃ t r, exec (.queueDestroy n) s = .next t ∧ get t.queues n = some r ∧ r.dying = true ∧
      r.flush.map (·.1) = some q.rptr ∧ ∀ p ∈ r.pkts, p.num < q.rptr → p.finished = true)) ∧
  ∀ (s : State) (d p i : Nat) (l : List (Nat × Nat)),
    ((256 ≤ i ∨ l.length = 1 ∨ 64 < l.length) → exec (.commSlotWrite d p i l) s = .next s) ∧
    (i < 256 → l.length ≠ 1 → l.length ≤ 64 → ∃ t, exec (.commSlotWrite d p i l) s = .next t ∧
      get t.comms (d, p, i) = (if l = [] then none else some l) ∧ t.collSeq = s.collSeq ∧
      (∀ k, k ≠ (d, p, i) → get t.comms k = get s.comms k) ∧ t.engOps = s.engOps ∧ t.mem = s.mem)

/-! ### Rows of packets (R361 to R364, R372 to R374) -/

/-- The packet u of queue n starts next, of type t and valid, and its turn has come (R361, R363). -/
structure Sys2Proof.Claims.Next (s : State) (n : Nat) (q : Queue) (u : PktAt) (t : Nat) : Prop where
  queue : get s.queues n = some q
  serves : q.serves = true
  next : q.next = some u
  ok : u.ok = true
  top : u.idx = none ∨ t < 7
  type : numAt u.bytes 0 8 % 256 = t
  valid : s.pktOk q.part false u.bytes = true

/-- The row of a type of packet; a LAUNCH has two rows, by PRED, and a GRAPH two, by what it asks. -/
def Sys2Proof.Claims.IsPacketRow (n : Nat) (i : Instr) (t : Nat) : Prop :=
  (i = .pktNop n ∧ t = 0) ∨ ((i = .launch n ∨ i = .launchDepStart n) ∧ t = 1) ∨ (i = .copy n ∧ t = 2) ∨ (i = .pktColl n ∧ t = 3) ∨
    (i = .pktWaitv n ∧ t = 4) ∨ (i = .signal n ∧ t = 5) ∨ (i = .andbar n ∧ t = 6) ∨ (i = .indirect n ∧ t = 7) ∨
    ((i = .graphDefine n ∨ i = .graphRun n) ∧ t = 8)

/-- R361, R363, R372: which packet starts. A queue that does not serve, or whose next packet must wait, starts none; an invalid one stops
the queue with code 1, and an INDIRECT or GRAPH in a buffer with code 6, whatever its other bytes hold (log entry 67); a packet of
another type is left to its own row. -/
def Sys2Proof.Claims.PacketOrder : Prop :=
  ∀ (s : State) (n : Nat) (q : Queue) (i : Instr) (t : Nat), IsPacketRow n i t → get s.queues n = some q →
    ((t = 4 ∨ t = 6) → q.waiting t = none) → (t = 7 → q.indirect = none) →
    (q.serves = false → exec i s = .next s) ∧
    (q.serves = true → q.next = none → exec i s = .next s) ∧
    ∀ u, q.serves = true → q.next = some u →
      (u.ok = false → exec i s = .next s) ∧
      (u.ok = true → let type := numAt u.bytes 0 8 % 256
        let inside := u.idx ≠ none ∧ (type = 7 ∨ type = 8)
        (inside → exec i s = .next (s.stopQueue n u.num 0 6)) ∧
        (¬ inside → s.pktOk q.part false u.bytes = false → exec i s = .next (s.stopQueue n u.num 0 1)) ∧
        (¬ inside → s.pktOk q.part false u.bytes = true → type ≠ t → exec i s = .next s))

/-- R362: NOP, COPY, COLL, WAITV, SIGNAL and ANDBAR, where no packet of the type waits already. `started` marks the packet as started, with
what it runs, and complete where it has completed. That a COPY whose ranges share a byte is a command that the engine rejects, and that it
stands in no engine queue, is log entry 68; which packets of a buffer a packet is ordered after is log entry 67. -/
def Sys2Proof.Claims.PacketRows : Prop :=
  (∀ (s : State) (n : Nat) (q : Queue) (u : PktAt), Next s n q u 0 → exec (.pktNop n) s = .next (s.started n u none none true)) ∧
  (∀ (s : State) (n : Nat) (q : Queue) (u : PktAt), Next s n q u 2 →
    let dst := numAt u.bytes 8 8 % 2 ^ 57
    let src := numAt u.bytes 16 8 % 2 ^ 57
    let len := numAt u.bytes 24 8
    (Share dst len src len → exec (.copy n) s = .next (s.stopQueue n u.num 0x281 5)) ∧
    (¬ Share dst len src len → ∃ t o, exec (.copy n) s = .next t ∧ get t.engOps s.serial = some o ∧ o.op = 0x50 ∧ o.st = .queued ∧
      o.dst = dst ∧ o.src = src ∧ o.total = len ∧ o.pkt = some (n, u.num) ∧ o.part = q.part ∧ t.mem = s.mem ∧
      t.queues = (s.started n u none (some s.serial) false).queues)) ∧
  (∀ (s : State) (n : Nat) (q : Queue) (u : PktAt), Next s n q u 3 →
    let dst := numAt u.bytes 8 8 % 2 ^ 57
    let src := numAt u.bytes 16 8 % 2 ^ 57
    let w := numAt u.bytes 24 8
    (∀ e, s.collCause q.die q.part dst src w = .error e → exec (.pktColl n) s = .next (s.stopQueue n u.num e.1 5)) ∧
    ∀ l, s.collCause q.die q.part dst src w = .ok l → ∃ t o, exec (.pktColl n) s = .next t ∧ get t.engOps s.serial = some o ∧ o.op = 0x52 ∧
      o.st = .travelling ∧ o.queue = 512 + (q.die * 32 + q.part) * 2 + w / 2 ^ 56 % 2 ∧ o.dst = dst ∧ o.src = src ∧ o.members = l ∧
      o.pkt = some (n, u.num) ∧ t.mem = s.mem ∧ t.queues = (s.started n u none (some s.serial) false).queues) ∧
  (∀ (s : State) (n : Nat) (q : Queue) (u : PktAt), Next s n q u 4 → q.waiting 4 = none →
    let w := s.queueWho q
    let va := numAt u.bytes 8 8 % 2 ^ 57
    (∀ e, s.access w [] .read true va 8 = .error e → exec (.pktWaitv n) s = .next (s.stopQueue n u.num e.1 3)) ∧
    ∀ l t b, s.access w [] .read true va 8 = .ok l → s.load w 2 l.hs l.pa 8 (keyOf l.pa l.key) = some (t, b, none) →
      exec (.pktWaitv n) s = .next (t.started n u none none (waitvTest (numAt u.bytes 32 1 == 1) (BitVec.ofNat 64 (ofBytes b))
        (BitVec.ofNat 64 (numAt u.bytes 16 8)) (BitVec.ofNat 64 (numAt u.bytes 24 8))))) ∧
  (∀ (s : State) (n : Nat) (q : Queue) (u : PktAt), Next s n q u 5 →
    let w := s.queueWho q
    let add := numAt u.bytes 24 1 = 1
    let v := numAt u.bytes 16 8
    let va := numAt u.bytes 8 8 % 2 ^ 57
    let scope := if (numAt u.bytes 0 8).testBit 14 then numAt u.bytes 0 8 / 2 ^ 8 % 2 ^ 3 else 5
    let released := scope < 4 ∨ s.applied (s.queueStamps q n u.num) = true
    let kind : Kind := if numAt u.bytes 24 1 = 1 then .atomic else .write
    (¬ released → exec (.signal n) s = .next s) ∧
    (released → (∀ e, s.access w [] kind (decide add) va 8 = .error e → exec (.signal n) s = .next (s.stopQueue n u.num e.1 3)) ∧
      ∀ l, s.access w [] kind (decide add) va 8 = .ok l → (s.pass w l.type 1 l.pa (decide (add ∨ l.type ≠ 1))).2 = none →
        (∀ t, ¬ add → s.store w l.type l.hs l.pa (indexed (toBytes 8 v)) (keyOf l.pa l.key) = some t →
          exec (.signal n) s = .next ((t.noteWrite s n).started n u none none true)) ∧
        ∀ t old, add → s.rmw w l.type l.hs l.pa 8 (keyOf l.pa l.key) (fun x => (x + v) % 2 ^ 64) = some (t, old, none) →
          exec (.signal n) s = .next ((t.noteWrite s n).started n u none none true))) ∧
  (∀ (s : State) (n : Nat) (q : Queue) (u : PktAt), Next s n q u 6 → q.waiting 6 = none →
    exec (.andbar n) s = .next (s.started n u none none
      ((List.range 5).all fun i =>
        let e := numAt u.bytes (8 + 8 * i) 8
        !e.testBit 63 || s.doneReached q.die (e / 2 ^ 51 % 2 ^ 12, e % 2 ^ 51)))) ∧
  ∀ (s : State) (n : Nat) (q : Queue) (u : PktAt) (launch eng : Option Nat) (done : Bool), get s.queues n = some q → u.idx = none →
    ∃ r, get (s.started n u launch eng done).queues n = some r ∧ r.rptr = q.rptr ∧ r.done = q.done ∧
      r.pkts = q.pkts.map fun p => if p.num = u.num then
        { p with started := true, complete := p.complete || done, launch := launch <|> p.launch, eng := eng <|> p.eng } else p

/-- R372 to R374: INDIRECT starts and then fetches its chunks; GRAPH DEFINE keeps a well-formed descriptor as the instance's version, RUN
starts the version that was captured, and a node starts once its predecessors have completed and while no node has failed. Where a RUN's
copy of its parameter block lies is log entry 26, and the bytes of a chunk are counted by log entry 67; nodes of a started RUN run on in a
stopped queue (log entry 64). -/
def Sys2Proof.Claims.BufferRows : Prop :=
  (∀ (s : State) (n : Nat) (q : Queue), get s.queues n = some q →
    (∀ u, Next s n q u 7 → q.indirect = none → exec (.indirect n) s = .next (s.started n u none none false)) ∧
    ∀ p, q.indirect = some p →
      let k := p.inner.length
      let m := min 4 (numAt p.bytes 16 4 - k)
      (q.serves = false → exec (.indirect n) s = .next s) ∧
      (q.serves = true → (p.mayFetch = false ∨ (s.part q.part).quiesce = true) → exec (.indirect n) s = .next s) ∧
      (q.serves = true → p.mayFetch = true → (s.part q.part).quiesce = false → ∀ t b,
        s.cpRead (s.queueWho q) ((numAt p.bytes 8 8 % 2 ^ 57 + 64 * k) % 2 ^ 57) (64 * m) = .done t b → b.length = 64 * m →
        exec (.indirect n) s = .next (t.mapPkt n p.num fun e => { e with inner := e.inner ++ (List.range m).map fun j =>
          { idx := k + j, bytes := (b.drop (64 * j)).take 64, started := false, complete := false, reported := false, launch := none
            eng := none } }))) ∧
  (∀ (s : State) (n : Nat) (q : Queue) (u : PktAt), Next s n q u 8 → numAt u.bytes 8 1 = 1 →
    let w := s.queueWho q
    let va := numAt u.bytes 16 8 % 2 ^ 57
    ∀ t h, s.cpRead w va 64 = .done t h →
      let k := numAt h 0 2
      ((k = 0 ∨ 256 < k ∨ numAt h 2 62 ≠ 0 ∨ numAt u.bytes 24 4 ≠ 64 * (k + 1)) →
        exec (.graphDefine n) s = .next (t.stopQueue n u.num 0 7)) ∧
      (1 ≤ k → k ≤ 256 → numAt h 2 62 = 0 → numAt u.bytes 24 4 = 64 * (k + 1) →
        ∀ v b, t.cpRead w ((va + 64) % 2 ^ 57) (64 * k) = .done v b →
          let nodes := (List.range k).map fun j => (b.drop (64 * j)).take 64
          let good := ∀ j < k, v.nodeOk q.part j (nodes.getD j []) = true
          (¬ good → exec (.graphDefine n) s = .next (v.stopQueue n u.num 0 7)) ∧
          (good → exec (.graphDefine n) s = .next (({ v with
            graphs := put v.graphs (q.part, numAt u.bytes 9 1) nodes } : State).started n u none none true)))) ∧
  (∀ (s : State) (n : Nat) (q : Queue) (u : PktAt) (p : Pkt), Next s n q u 8 → numAt u.bytes 8 1 = 0 →
    q.pkts.find? (fun e => e.num == u.num) = some p →
    let k := numAt u.bytes 24 4
    (p.version = [] → exec (.graphRun n) s = .next (s.stopQueue n u.num 0 7)) ∧
    (p.version ≠ [] → k = 0 → exec (.graphRun n) s = .next (s.mapPkt n u.num fun e => e.run 0)) ∧
    (p.version ≠ [] → k ≠ 0 →
      let to_ := (q.pool + 2 ^ 40 + 0x1000 * (n + 4096 * (u.num % 65536))) % 2 ^ 57
      ∀ t b v, s.cpRead (s.queueWho q) (numAt u.bytes 16 8 % 2 ^ 57) k = .done t b → t.cpWrite (s.queueWho q) to_ b = .done v () →
        exec (.graphRun n) s = .next ((v.noteWrite s n).mapPkt n u.num fun e => e.run to_))) ∧
  ∀ (s : State) (n j : Nat) (q : Queue) (p : Pkt) (e : Inner), get s.queues n = some q → q.graph = some p →
    p.inner.find? (fun i => i.idx == j) = some e →
    let i : Instr := .graphNodeStart n j
    let preds := ((List.range 4).map fun k => numAt e.bytes (48 + 2 * k) 2).filter fun k => k != 0xFFFF
    let ready := ∀ k ∈ preds, ∃ z ∈ p.inner, z.idx = k ∧ z.complete = true
    let u : PktAt := { num := p.num, idx := some j, bytes := e.bytes, ok := true }
    let runs := q.flush = none ∧ q.dying = false
    let again := e.started = true ∧ e.complete = false ∧ numAt e.bytes 0 8 % 256 = 4
    ((¬ runs ∨ ¬ ready ∨ s.nodeFailed p = true ∨ (e.started = true ∧ ¬ again)) → exec i s = .next s) ∧
    (runs → ready → s.nodeFailed p = false → (e.started = false ∨ again) →
      (∀ t, numAt e.bytes 0 8 % 256 = 1 → s.serveLaunch q n u p.params = some t → exec i s = .next t) ∧
      (∀ t, numAt e.bytes 0 8 % 256 = 2 → s.serveCopy q n u = some t → exec i s = .next t) ∧
      (∀ t, numAt e.bytes 0 8 % 256 = 3 → s.serveColl q n u = some t → exec i s = .next t) ∧
      (∀ t, numAt e.bytes 0 8 % 256 = 4 → s.serveWaitv q n u = some t → exec i s = .next t) ∧
      ∀ t, numAt e.bytes 0 8 % 256 = 5 → s.serveSignal q n u = some t → exec i s = .next t)


/-! ### Rows of launches (R67, R88, R365 to R371, R393) -/

/-- R365, R366, R371, R384: LAUNCH and LAUNCH_DEP_START. A predecessor that is none, or never started (log entry 64), or has failed
or been cancelled, stops the queue with code 1; one that has failed and whose queue is still to stop for it holds the packet (R370, R376;
log entry 63); a quiesced partition and untriggered predecessors hold the packet; an image that is
not acceptable stops the queue with code 2; else the launch starts, with its image published where PUB asks. -/
def Sys2Proof.Claims.LaunchRows : Prop :=
  (∀ (s : State) (n : Nat) (q : Queue) (u : PktAt), Next s n q u 1 →
    let pred := numAt u.bytes 0 8 / 2 ^ 20 % 2 ^ 4
    (pred ≠ 0 → exec (.launch n) s = .next s) ∧ (pred = 0 → exec (.launchDepStart n) s = .next s) ∧
    (∀ t, pred = 0 → s.serveLaunch q n u 0 = some t → exec (.launch n) s = .next t) ∧
    (∀ t, pred ≠ 0 → s.serveLaunch q n u 0 = some t → exec (.launchDepStart n) s = .next t) ∧
    (s.serveLaunch q n u 0 = none → exec (.launch n) s = .next s ∧ exec (.launchDepStart n) s = .next s)) ∧
  (∀ (s : State) (q : Queue) (n k1 : Nat) (u : PktAt),
    let pred := numAt u.bytes 0 8 / 2 ^ 20 % 2 ^ 4
    let scope := numAt u.bytes 0 8 / 2 ^ 16 % 2 ^ 3
    let named (l : Nat) : Prop := ∃ j < 4, pred.testBit j = true ∧ q.launches[j]? = some (some l)
    let missing := ∃ j < 4, pred.testBit j = true ∧ ((q.launches[j]?).join).bind s.launch = none
    let stopping (l : Nat) : Prop := ∃ e r p, s.launch l = some e ∧ e.st = .failed ∧ get s.queues e.queue = some r ∧ p ∈ r.pkts ∧
      p.num = e.pkt ∧ p.discarded = false ∧ l ∈ p.launches ∧ s.holdsSlots l = true
    let broken := ∃ l e, named l ∧ ¬ stopping l ∧ s.launch l = some e ∧ (e.st = .failed ∨ e.st = .cancelled)
    let placing := (s.part q.part).en = true ∧ (s.part q.part).quiesce = false ∧ s.merges q.part = false
    let triggered := ∀ l e, named l → s.launch l = some e → s.allTriggered l e = true
    (missing ∨ broken → s.serveLaunch q n u k1 = some (s.stopQueue n u.num 0 1)) ∧
    (¬ missing → ¬ broken → (¬ placing ∨ ¬ triggered ∨ ∃ l, named l ∧ stopping l) → s.serveLaunch q n u k1 = none) ∧
    (pred = 0 → placing → (scope < 4 ∨ s.applied (s.die q.die).clock = true) →
      s.serveLaunch q n u k1 = s.startLaunch q n u k1 (s.die q.die).clock)) ∧
  ∀ (s : State) (q : Queue) (n k1 : Nat) (u : PktAt) (due : List Nat), get s.queues n = some q → u.idx = none →
    let w := s.queueWho q
    let va := numAt u.bytes 8 8 % 2 ^ 57
    (∀ t, s.readImage w va = .done t none → s.startLaunch q n u k1 due = some (t.stopQueue n u.num 0 2)) ∧
    ∀ t b h, s.readImage w va = .done t (some (b, h)) → (numAt u.bytes 0 8).testBit 15 = false → get t.queues n = some q →
      ∃ v e r, s.startLaunch q n u k1 due = some v ∧ v.launch t.serial = some e ∧ e.st = .running ∧ e.placed = 0 ∧ e.exited = 0 ∧
        e.header = h ∧ e.kernel = va ∧ e.nx = numAt u.bytes 16 4 ∧ e.ny = numAt u.bytes 20 4 ∧ e.nz = numAt u.bytes 24 4 ∧
        e.tslots = numAt u.bytes 28 1 ∧ e.args = BitVec.ofNat 64 (numAt u.bytes 32 8) ∧ e.ident = BitVec.ofNat 64 (numAt u.bytes 40 8) ∧
        e.k1 = BitVec.ofNat 64 k1 ∧ e.part = q.part ∧ e.root = q.root ∧ e.queue = n ∧ e.pkt = u.num ∧ v.serial = t.serial + 1 ∧
        v.mem = t.mem ∧ get v.queues n = some r ∧ r.launches = some t.serial :: q.launches ∧ e.pool = q.pool ∧ e.poolSize = q.poolSize ∧
        r.pkts = q.pkts.map fun z => if z.num = u.num then { z with started := true, launch := some t.serial } else z

/-- R64, R66, R67, R88: the header that a command processor reads; an image with a bad field has none. -/
def Sys2Proof.Claims.KernelHeaders : Prop :=
  (∀ b tasks groups : List Byte,
    let n := numAt b 7 1
    let modes := (List.range 4).map fun i => numAt b 0x0A 1 / 2 ^ (2 * i) % 4
    let size := (modes.zip [98304, 131072, 131072, 131072]).foldl (fun a e => if e.1 = 1 then a + e.2 else a) 0
    let nt := numAt b 0x18 2
    let ng := numAt b 0x1A 2
    let entry (i : Nat) : Nat := numAt groups (4 * i) 4
    let good := numAt b 0 4 = 0x31484B56 ∧ numAt b 4 2 = 1 ∧ numAt b 6 1 ≤ 2 ∧ 1 ≤ n ∧ n ≤ 16 ∧ numAt b 8 1 ≤ 32 ∧ numAt b 9 1 ≤ 32 ∧
      3 ∉ modes ∧ numAt b 0x0B 1 = 0 ∧ numAt b 0x0C 4 % 128 = 0 ∧ numAt b 0x0C 4 ≤ size ∧ numAt b 0x10 4 % 4 = 0 ∧
      numAt b 0x14 4 % 8 = 0 ∧ nt ≤ 4096 ∧ ng ≤ 256 ∧ numAt b 0x1C 4 % 4 = 0 ∧ numAt b 0x24 4 < 32 ∧ numAt b 0x24 4 / 4 % 8 ≠ 7 ∧
      numAt b 0x2C 20 = 0 ∧ (∀ i < nt, numAt tasks (8 * i) 4 % 4 = 0) ∧
      (∀ i < ng, entry i < 2 ^ 17 ∧ if (entry i).testBit 16 then entry i % 2 ^ 16 = 0 else entry i < 2 ^ n) ∧
      ∀ w < n, ((List.range ng).filter fun i => (entry i).testBit 16 || (entry i).testBit w).length ≤ 4
    ((¬ good) → parseKernel b tasks groups = none) ∧
    (good → ∃ h, parseKernel b tasks groups = some h ∧ h.width = 16 * 2 ^ numAt b 6 1 ∧ h.wgWarps = n ∧ h.nv = numAt b 8 1 ∧
      h.ns = numAt b 9 1 ∧ h.modes = modes ∧ h.scratch = numAt b 0x0C 4 ∧ h.energy = numAt b 0x20 4 ∧ h.nosteal = (numAt b 0x24 4).testBit 0 ∧
      h.noxsteal = (numAt b 0x24 4).testBit 1 ∧ h.fpcrm = numAt b 0x24 4 / 4 % 8 ∧ h.textBytes = numAt b 0x28 4 ∧
      h.tasks.length = nt ∧ h.groups.length = ng)) ∧
  ∀ h : Header, h.slotBytes = h.width * (16 + h.nv) * 4 + (16 + h.ns) * 8

/-- R20, R21, R87, R367, R369, R393: WORKGROUP_PLACE puts the next workgroup of a launch on the core that qualifies, whose context
pool holds its context memory (log entry 26), its warps at the kernel's first word, on slots that nothing occupies or that the
launch holds free (log entry 83), once the core's die has applied what the launch acquired (log entry 69); LAUNCH_COMPLETE ends a
launch all of whose workgroups have exited and of which nothing is left. -/
def Sys2Proof.Claims.PlacementRows : Prop :=
  (∀ (s : State) (l : Nat) (e : Launch), s.launch l = some e →
    (s.placeAt l e = none → exec (.workgroupPlace l) s = .next s) ∧
    ∀ c, s.placeAt l e = some c → s.served l e = true → covers (s.die (coreDie c)).clock e.due = true →
      ∃ t, exec (.workgroupPlace l) s = .next t ∧ t.mem = s.mem ∧ t.launch l = some { e with placed := e.placed + 1, last := some c } ∧
        (∃ g ∈ (t.core c).wgs, g.launch = l ∧ g.index = e.placed) ∧
        ∀ j w, ((s.core c).placeSlots l e.header.width)[j]? = some w → e.header.width ≤ 64 →
          j < e.header.wgWarps → ∃ z x p, t.slot c w = some z ∧ z.launch = l ∧ z.wg = some e.placed ∧ z.windex = j ∧
            z.use = .busy ∧ z.warp = some x ∧ x.windex = j ∧ x.width = e.header.width ∧ x.a = some p ∧
            p.pc = BitVec.ofNat 57 (e.kernel + 64) ∧ p.mask.toNat = 2 ^ e.header.width - 1 ∧ x.b = none ∧
            x.k.take 2 = [Cell64.of e.args, Cell64.of e.k1] ∧ x.ops = []) ∧
  (∀ (s : State) (l : Nat) (e : Launch), e.st = .running → s.placeAt l e = none ∨ e.placed < e.nx * e.ny * e.nz ∧
    (s.part e.part).en = true ∧ (s.part e.part).quiesce = false ∧ s.limiting = false ∧ (s.part e.part).exh = false ∧
    ∃ c, s.placeAt l e = some c ∧ s.partOf c = some e.part ∧ (s.core c).withheld = false ∧ (s.core c).retire = false ∧ (s.core c).hot = false ∧
      s.poolHolds c l e (e.header.wgWarps + e.tslots) = true) ∧
  ∀ (s : State) (l : Nat) (e : Launch), s.launch l = some e →
    let total := e.nx * e.ny * e.nz
    ((e.st ≠ .running ∨ e.placed ≠ total ∨ e.exited ≠ total ∨ s.launchGone l = false) → exec (.launchComplete l) s = .next s) ∧
    (e.st = .running → e.placed = total → e.exited = total → s.launchGone l = true → ∃ t, exec (.launchComplete l) s = .next t ∧
      t.launch l = some { e with st := .complete } ∧ t.mem = s.mem ∧
      ∀ q, get s.queues e.queue = some q → ∃ r, get t.queues e.queue = some r ∧ r.pkts = q.pkts.map fun p =>
        { p with complete := p.complete || p.launch == some l,
                 inner := p.inner.map fun i => if i.launch = some l then { i with complete := true } else i })


/-! ### Rows of control registers (R7, R171 to R173, R189, R354, R383, R384, R387, R388, R391, R392, R398, R405) -/

/-- R7, R189, R354, R383, R384, R398, R405: writes of LSTEAL_MIN, XSTEAL_MIN, MINRES, THERMHOT, PCTL, ATTACH and, at a firmware level, of
the other registers of control space. -/
def Sys2Proof.Claims.RegisterRows : Prop :=
  (∀ (s : State) (c : Nat) (cross : Bool) (v : DWord),
    let n := v.toNat % 512
    ∃ t, exec (.stealMinWrite c cross v) s = .next t ∧ t.mem = s.mem ∧
      (t.core c).xsteal = (if cross = true ∧ n < 258 then n else (s.core c).xsteal) ∧
      (t.core c).lsteal = (if cross = false ∧ n < 258 then n else (s.core c).lsteal) ∧ (t.core c).slots = (s.core c).slots) ∧
  (∀ (s : State) (d : Nat) (v : DWord), d < s.dies.length →
    (∃ t, exec (.minresWrite d v) s = .next t ∧ t.mem = s.mem ∧ (t.die d).thermhot = (s.die d).thermhot ∧
      (t.die d).minres = if 6000000 ≤ v.toNat % 2 ^ 32 then v.toNat % 2 ^ 32 else (s.die d).minres) ∧
    ∃ t, exec (.thermhotWrite d v) s = .next t ∧ t.mem = s.mem ∧ (t.die d).minres = (s.die d).minres ∧
      (t.die d).thermhot = (if v.toNat % 256 ≤ 105 then v.toNat % 256 else (s.die d).thermhot) ∧
      ∀ i < 64, let k := s.core (64 * d + i)
        let n := (t.die d).thermhot
        (t.core (64 * d + i)).hot = (decide (n ≤ k.temp) || (k.hot && !decide (k.temp + 5 ≤ n))) ∧
        (t.core (64 * d + i)).temp = k.temp) ∧
  (∀ (s : State) (p : Nat) (v : DWord), p < 32 →
    let free := ∀ i < 32, v.getLsbD (32 + i) = true → s.withheld i = false ∧
      ∀ e ∈ s.parts, e.1 ≠ p → e.2.en = true → e.2.quarters.getLsbD i = false
    (¬ free → exec (.pctlWrite p v) s = .next s) ∧
    (free → ∃ t, exec (.pctlWrite p v) s = .next t ∧ t.mem = s.mem ∧ t.cores = s.cores ∧ (∀ q, q ≠ p → t.part q = s.part q) ∧
      (t.part p).en = v.getLsbD 0 ∧ (t.part p).quiesce = v.getLsbD 15 ∧ (t.part p).quarters.toNat = v.toNat / 2 ^ 32)) ∧
  (∀ (s : State) (n : Nat) (v : DWord), n < 64 →
    let meets (u : DWord) : Prop := ctlField u 2 61 = ctlField v 2 61 ∧ ctlField u 18 30 < ctlField v 18 30 + ctlField v 18 0 ∧
      ctlField v 18 30 < ctlField u 18 30 + ctlField u 18 0
    let bad := ctlField v 2 61 = 0 ∨ ctlField v 18 0 = 0 ∨ ∃ e ∈ s.attach, e.1 ≠ n ∧ e.2.getLsbD 63 = true ∧ meets e.2
    ∃ t u, exec (.attachWrite n v) s = .next t ∧ get t.attach n = some u ∧ u.getLsbD 63 = (v.getLsbD 63 && !decide bad) ∧
      (∀ i < 63, u.getLsbD i = (v.getLsbD i && (decide (i < 18) || (decide (30 ≤ i) && decide (i < 48)) || decide (56 ≤ i)))) ∧
      (∀ m, m ≠ n → get t.attach m = get s.attach m) ∧ t.mem = s.mem) ∧
  ∀ (s : State) (lvl a : Nat) (v : DWord),
    let barred := 1 < lvl ∨ a / 2 ^ 52 % 2 ^ 5 ≠ 31 ∨ a % 8 ≠ 0 ∨ a / 2 ^ 35 % 2 ^ 17 ≠ 0 ∨ (lvl ≠ 0 ∧ (ctrlReg a).monitorOnly = true)
    (barred → exec (.registerWrite lvl a v) s = .next s) ∧
    (¬ barred →
      (∀ p, ctrlReg a = .enbudget p → ∃ t, exec (.registerWrite lvl a v) s = .next t ∧ (t.part p).budget.toNat = v.toNat % 2 ^ 32 ∧
        (t.part p).used = (s.part p).used ∧
        (t.part p).exh = decide (v.toNat % 2 ^ 32 ≠ 2 ^ 32 - 1 ∧ v.toNat % 2 ^ 32 ≤ (s.part p).used) ∧ t.mem = s.mem) ∧
      (∀ k, ctrlReg a = .keyown k → ∃ t z, exec (.registerWrite lvl a v) s = .next t ∧ get t.keys k = some z ∧ z.granted = v.getLsbD 5 ∧
        z.part = v.toNat % 32 ∧ t.mem = s.mem) ∧
      (∀ n, ctrlReg a = .vfmap n → ∃ t z, exec (.registerWrite lvl a v) s = .next t ∧ get t.vfmap n = some z ∧
        z.getLsbD 63 = v.getLsbD 63 ∧ z.toNat % 32 = v.toNat % 32 ∧ t.mem = s.mem) ∧
      (∀ d off, ctrlReg a = .table d off → ∃ t, exec (.registerWrite lvl a v) s = .next t ∧ t.mem = s.mem ∧
        (Memory.wf s.ctrl = true → ∀ j < 8, memGet t.ctrl (d * 2 ^ 24 + off + j) = (toBytes 8 v.toNat).getD j 0)) ∧
      ∀ c, ctrlReg a = .corectl c → v.getLsbD 0 = false → exec (.registerWrite lvl a v) s = .next s)

/-- R171 to R173, R387, R388, R391, R392: format windows, refusals and their logs, shoot-downs and energy windows. -/
def Sys2Proof.Claims.MonitorRows : Prop :=
  (∀ (s : State) (p w : Nat) (v : DWord), p < 32 → w < 16 →
    let r := (s.part p).windowRegs w
    let ctl := r.getD 0 0
    r.length = 5 →
    (ctl.getLsbD 63 = true → exec (.fwctlEnable p w v) s = .next s) ∧
    (ctl.getLsbD 63 = false → ∃ t u, exec (.fwctlEnable p w v) s = .next t ∧ (t.part p).windowRegs w = r.set 0 u ∧
      u.toNat % 256 = v.toNat % 256 ∧
      u.getLsbD 63 = s.windowOk p w (r.set 0 (v &&& 0xFF)) ∧ u.getLsbD 62 = !s.windowOk p w (r.set 0 (v &&& 0xFF)) ∧ t.mem = s.mem) ∧
    ∃ t u, exec (.fwctlDisable p w) s = .next t ∧ (t.part p).windowRegs w = r.set 0 u ∧ u.getLsbD 63 = false ∧
      u.toNat % 256 = ctl.toNat % 256 ∧ t.mem = s.mem) ∧
  (∀ (s : State) (d t mid kind pa : Nat), t < 64 →
    let i : Instr := .accessRefusal d t mid kind pa
    let log := (get s.logs (64 * d + t)).getD ([], 0)
    (∃ u, exec (.refusalLogClear d t) s = .next u ∧ get u.logs (64 * d + t) = none ∧ (∀ k, k ≠ 64 * d + t → get u.logs k = get s.logs k) ∧
      u.mem = s.mem) ∧
    (s.admits d t mid kind pa = true → exec i s = .next s) ∧
    (s.admits d t mid kind pa = false → ∃ u, exec i s = .next u ∧ u.mem = s.mem ∧
      (∀ p, s.partOfMid mid = some p → (u.part p).refused = true) ∧
      (mid < 2 ^ 11 → kind < 3 → ∃ e : DWord, get u.logs (64 * d + t) = some ((e :: log.1).take 16,
        if 16 ≤ log.1.length then min (2 ^ 64 - 1) (log.2 + 1) else log.2) ∧
        e.toNat / 2 ^ 53 = mid ∧ e.toNat / 2 ^ 51 % 4 = kind ∧ e.toNat % 2 ^ 45 = pa / 128 % 2 ^ 45))) ∧
  (∀ (s : State) (p : Nat) (v : DWord), p < 32 →
    let size := if v.toNat % 4 = 0 then 16 else if v.toNat % 4 = 1 then 21 else 30
    let from_ := ctlField v 41 16 * 2 ^ 16 / 2 ^ size * 2 ^ size
    let covered (lvl page : Nat) : Prop := v.getLsbD 61 = true ∨ v.toNat % 4 = 3 ∨
      (page * 2 ^ leafShift lvl < from_ + 2 ^ size ∧ from_ < (page + 1) * 2 ^ leafShift lvl)
    ((s.part p).busy = true → ∃ t, exec (.shootdown p v) s = .next t ∧ t.cores = s.cores ∧ (t.part p).busy = true ∧
      (t.part p).shootFrom = (s.part p).shootFrom ∧ t.mem = s.mem) ∧
    ((s.part p).busy = false → ∃ t, exec (.shootdown p v) s = .next t ∧ (t.part p).busy = true ∧ (t.part p).shootFrom = s.serial ∧
      t.mem = s.mem ∧
      (∀ c, ∀ e ∈ (t.core c).tlb, e.1 ∈ s.rootsOf p → ¬ covered e.2.1 e.2.2.1) ∧
      (∀ d, ∀ e ∈ (t.die d).tlb, e.2.1 ∈ s.rootsOf p → ¬ covered e.2.2.1 e.2.2.2.1) ∧
      (∀ c, ∀ e ∈ (s.core c).tlb, e.1 ∉ s.rootsOf p → e ∈ (t.core c).tlb) ∧
      ∀ d, ∀ e ∈ (s.die d).tlb, e.2.1 ∉ s.rootsOf p → e ∈ (t.die d).tlb) ∧
    ((s.part p).busy = false ∨ s.shootDue p = true → exec (.shootdownComplete p) s = .next s) ∧
    ((s.part p).busy = true → s.shootDue p = false → ∃ t, exec (.shootdownComplete p) s = .next t ∧ (t.part p).busy = false ∧
      t.cores = s.cores ∧ t.mem = s.mem)) ∧
  ∀ (s : State) (p : Nat), p < 32 →
    let w := s.timeOf (s.proxyDie p) / 300000
    (w ≤ (s.part p).window → exec (.energyWindow p) s = .next s) ∧
    ((s.part p).window < w → ∃ t, exec (.energyWindow p) s = .next t ∧ (t.part p).window = w ∧ (t.part p).used = 0 ∧
      (t.part p).exh = false ∧ (t.part p).budget = (s.part p).budget ∧ t.mem = s.mem)

/-! ### Rows of the platform (R394, R395, R397, R400 to R405) -/

/-- R394, R395: RETIRE, MERGE, SPLIT and MERGE_DRAIN_TIMEOUT. What becomes of access tables and guards, and that B's QUIESCE stays set after
an operation that has succeeded, is log entry 70; what a replaced core keeps is log entry 71; what B is granted after a split is log
entry 29. -/
def Sys2Proof.Claims.StructuralRows : Prop :=
  (∀ (s : State) (c : Nat), c < 512 → coreDie c < s.dies.length →
    let k := s.core c
    let d := s.die (coreDie c)
    let busy := match s.partOf c with
      | some p => s.merges p = true ∨ s.retires p = true
      | none => k.retire = true
    (k.retire = false → (d.spares = 0 ∨ busy) → ∃ t, exec (.retire c) s = .next t ∧ (t.core c).err = true ∧ (t.core c).retire = false ∧ (t.core c).retired = k.retired ∧
      (t.core c).slots = k.slots ∧ t.mem = s.mem) ∧
    (k.retire = false → d.spares ≠ 0 → ¬ busy → ∃ t, exec (.retire c) s = .next t ∧ (t.core c).retire = true ∧ (t.core c).err = false ∧
      t.mem = s.mem ∧ ∀ w x, s.warp c w = some x → x.status = .running → ∃ y, t.warp c w = some y ∧ 0x3C1 ∈ y.req ∧ y.a = x.a ∧ y.b = x.b) ∧
    (k.retire = true → (∃ z ∈ k.slots, z.2.warp ≠ none) → exec (.retire c) s = .next s) ∧
    (k.retire = true → (∀ z ∈ k.slots, z.2.warp = none) → ∃ t, exec (.retire c) s = .next t ∧ (t.core c).retire = false ∧
      (t.core c).retired = true ∧ (t.core c).err = k.err ∧ (t.core c).leases = [] ∧ (t.core c).ileases = [] ∧ (t.core c).tlb = [] ∧ (t.core c).matrix = Matrix.clear ∧
      (t.core c).deque = k.deque ∧ (t.core c).futures = k.futures ∧ (t.core c).sram = k.sram ∧
      (t.die (coreDie c)).spares = d.spares - 1 ∧ t.mem = s.mem)) ∧
  (∀ (s : State) (a : Nat) (v : DWord) (split : Bool), a < 32 → (s.part a).merging = none →
    let i : Instr := if split then .split a v else .merge a v
    let b := ctlField v 5 54
    let mask : BitVec 32 := v.truncate 32
    let x := s.part a
    let y := s.part b
    let on (e : Part) : Nat := (e.windows.filter fun w => (w.2.getD 0 0).getLsbD 63).length
    let bad := if split then x.en = false ∨ y.en = true ∨ a = b ∨ mask &&& ~~~x.quarters ≠ 0 ∨ mask = x.quarters
      else a = b ∨ x.en = false ∨ y.en = false ∨ mask ≠ 0
    let busy := s.merges a = true ∨ s.merges b = true ∨ s.retires a = true ∨ s.retires b = true
    let refused (n : Nat) : Prop := ∃ t, exec i s = .next t ∧ (t.part a).mergestat = BitVec.ofNat 64 n ∧ (t.part a).merging = none ∧
      (t.part a).quiesce = x.quiesce ∧ t.cores = s.cores ∧ t.mem = s.mem
    (bad → refused 4) ∧ (¬ bad → busy → refused 5) ∧ (¬ bad → ¬ busy → split = false → 16 < on x + on y → refused 3) ∧
    (¬ bad → ¬ busy → (split = true ∨ on x + on y ≤ 16) → ∃ t, exec i s = .next t ∧ (t.part a).mergestat = 1 ∧
      (t.part a).quiesce = true ∧ (t.part b).quiesce = true ∧ t.mem = s.mem ∧
      (t.part a).merging = some { other := b, split := split, mask := mask, until_ := s.timeOf (s.proxyDie a) + ctlField v 22 32 * 1024, moved := false } ∧
      ∀ c < 512, ∀ w z x' e, s.slot c w = some z → z.warp = some x' → s.launch z.launch = some e → (e.part = a ∨ e.part = b) →
        x'.status = .running → ∃ y', t.warp c w = some y' ∧ 0x3C2 ∈ y'.req)) ∧
  (∀ (s : State) (a : Nat) (v : DWord) (m : Merging), (s.part a).merging = some m → m.other ≠ a →
    let i : Instr := if m.split then .split a v else .merge a v
    (m.moved = false → (s.busyQueues a m.other ≠ [] ∨ s.movedOwed a m.other = true) → exec i s = .next s) ∧
    (m.moved = false → s.busyQueues a m.other = [] → s.movedOwed a m.other = false → exec i s = .next (s.moveOwnership a m)) ∧
    (m.moved = true → (s.part a).busy = true → exec i s = .next s) ∧
    (m.moved = true → (s.part a).busy = false → ∃ t, exec i s = .next t ∧ (t.part a).merging = none ∧ (t.part a).mergestat = 0 ∧
      (t.part a).quiesce = false ∧ (t.part m.other).quiesce = (s.part m.other).quiesce ∧ (t.part a).quarters = (s.part a).quarters ∧ t.mem = s.mem) ∧
    (exec (if m.split then .merge a v else .split a v) s = .next s) ∧
    (m.moved = false → m.split = false → ((s.moveOwnership a m).part a).quarters = (s.part a).quarters ||| (s.part m.other).quarters ∧
      ((s.moveOwnership a m).part m.other).en = false ∧ ((s.moveOwnership a m).part m.other).quarters = 0) ∧
    (m.moved = false → m.split = true →
      ((s.moveOwnership a m).part a).quarters = (s.part a).quarters &&& ~~~m.mask ∧
      ((s.moveOwnership a m).part m.other).en = true ∧ ((s.moveOwnership a m).part m.other).quarters = m.mask) ∧
    ∀ q l, s.busyQueues a m.other = q :: l → q < 4096 →
      ((m.moved = true ∨ s.timeOf (s.proxyDie a) ≤ m.until_) → exec (.mergeDrainTimeout a) s = .next s) ∧
      (m.moved = false → m.until_ < s.timeOf (s.proxyDie a) → ∃ t, exec (.mergeDrainTimeout a) s = .next t ∧ (t.part a).merging = none ∧
        (t.part a).quiesce = false ∧ (t.part m.other).quiesce = false ∧ (t.part a).mergestat.toNat = q * 2 ^ 36 + 2 ∧ t.mem = s.mem)) ∧
  ∀ (s : State) (a : Nat), (s.part a).merging = none → exec (.mergeDrainTimeout a) s = .next s

/-- R397, R400 to R405: bring-up, attestation, links, power and temperature. A boot ROM accepts an image whose root key has the
fused digest, whose signature verifies and whose version is not below the fused one; how an image lies in flash is log entry 3, what
a reset leaves as it was log entry 72, and the order of the values that CFGMEAS covers log entry 73. -/
def Sys2Proof.Claims.PlatformRows : Prop :=
  (∀ (img : FwImage) (d : Nat), imageAccepted img d = decide (
    (sha512 (imageRoot img) = bytesBe 64 (Config.rootDigest d).toNat ∧
      pssVerify img.modulus img.exponent (imageSigned img) img.signature = true) ∧ Config.minVersion d ≤ img.version)) ∧
  (∀ (s : State) (img : FwImage) (failing : List Nat) (up : BitVec 32),
    let acc : BitVec 8 := imageDies img
    let load := img.load / 4096 % 2 ^ 45 * 4096
    let inside (pa : Nat) : Prop := acc ≠ 0 ∧ load ≤ pa ∧ pa < load + img.bytes.length
    (∀ d < 8, acc.getLsbD d = imageAccepted img d) ∧
    (s.host.bootstat.getLsbD 63 = true → exec (.powerGood img failing up) s = .next s) ∧
    (s.host.bootstat.getLsbD 63 = false → ∃ t, exec (.powerGood img failing up) s = .next t ∧
      (Memory.wf s.mem = true →
        (∀ pa, ¬ inside pa → memGet t.mem pa = if region pa = 0 ∨ inAperture pa = true then 0 else memGet s.mem pa) ∧
        (acc ≠ 0 → ∀ j < img.bytes.length, memGet t.mem (load + j) = img.bytes.getD j 0)) ∧
      (acc ≠ 0 → t.firmware = some (img.version, img.bytes)) ∧
      t.parts = [] ∧ t.queues = [] ∧ t.launches = [] ∧ t.keys = [] ∧ t.ctrl = [] ∧ t.free = s.free ∧
      (∀ d < 8, (t.die d).up = acc.getLsbD d) ∧
      (∀ d < 8, ∀ i < 4, (t.die d).ports.getD i (false, 0) = (acc.getLsbD d && up.getLsbD (4 * d + i), 0)) ∧
      (acc = 0 → t.host.bootstat = 0) ∧ (acc ≠ 0 → t.host.bootstat.getLsbD 63 = true ∧
        ∀ d < 8, t.host.bootstat.getLsbD d = !acc.getLsbD d))) ∧
  (∀ (s : State) (addr : DWord) (nonce : BitVec 512),
    let i : Instr := .attestRequest addr nonce
    let a : DWord := addr &&& 0x000FFFFFFFFFFFFF
    let shown := ∃ x ∈ s.dies, x.up = true ∧ ∃ z ∈ x.ports, z.1 = true
    let d := s.host.bootstat.toNat / 2 ^ 8 % 2 ^ 3
    let h := s.host
    (((s.die d).up = false ∨ ¬ shown) → exec i s = .next s) ∧
    ((s.die d).up = true → shown → h.busy = true → exec i s = .next { s with host := { h with attaddr := a, nonce := nonce } }) ∧
    ((s.die d).up = true → shown → h.busy = false → s.reportAt a.toNat = false →
      exec i s = .next { s with host := { h with attaddr := a, nonce := nonce, busy := false, done := false, err := true } }) ∧
    ((s.die d).up = true → shown → h.busy = false → s.reportAt a.toNat = true →
      let t : State := { s with host := { h with attaddr := a, nonce := nonce, busy := true, done := false, err := false } }
      let w : Who := { die := d, mid := d * 256 + 0xA0, part := none, root := none }
      ∀ u, State.writePhys w a.toNat t.report t (linePieces a.toNat 736) = some (u, true) → exec i s = .next u)) ∧
  (∀ (s : State) (ok : Bool),
    (s.host.busy = false → exec (.attestDone ok) s = .next s) ∧
    (s.host.busy = true → exec (.attestDone ok) s = .next { s with host := { s.host with busy := false, done := ok, err := !ok } })) ∧
  (∀ (s : State) (port : Nat) (up : Bool), port < 32 → port / 4 < s.dies.length → (s.die (port / 4)).ports.length = 4 →
    let n := ((s.die (port / 4)).ports.getD (port % 4) (false, 0)).2
    ((s.die (port / 4)).up = false → exec (.portLinkChange port up) s = .next s) ∧
    ((s.die (port / 4)).up = true → ∃ t, exec (.portLinkChange port up) s = .next t ∧ t.mem = s.mem ∧
      (t.die (port / 4)).ports.getD (port % 4) (false, 0) = (up, if up then min 255 (n + 1) else n) ∧
      (∀ j < 4, j ≠ port % 4 → (t.die (port / 4)).ports[j]? = (s.die (port / 4)).ports[j]?) ∧ ∀ d, d ≠ port / 4 → t.die d = s.die d)) ∧
  (∀ (s : State) (on : Bool), exec (.powerLimit on) s = .next { s with limiting := on }) ∧
  (∀ (s : State) (c n : Nat), c < 512 → n < 256 →
    let hot := (s.die (coreDie c)).thermhot
    ∀ i : Instr, (i = .coreHot c n ∨ i = .coreCool c n) → ∃ t, exec i s = .next t ∧ t.mem = s.mem ∧ (t.core c).temp = n ∧
      (t.core c).hot = (decide (hot ≤ n) || ((s.core c).hot && !decide (n + 5 ≤ hot))) ∧ (t.core c).slots = (s.core c).slots) ∧
  ∀ (s : State) (d : Nat),
    ((s.die d).up = false → exec (.criticalReset d) s = .next s) ∧
    ((s.die d).up = true → ∃ t, exec (.criticalReset d) s = .next t ∧ (∀ e < 8, (t.die e).up = false) ∧ t.host.bootstat = 0 ∧
      t.launches = [] ∧ t.queues = [] ∧ (∀ c, (t.core c).slots = []) ∧
      (∀ pa, inAperture pa = false → region pa = 0 → memGet t.mem pa = 0))

/-! ### A step -/

/-- The turn issues on c, the split there may issue and the arbitration lets it (R26) or it is held at its word, and the word at its
program counter, fetched with its literal words, is the instruction i, which passes the checks of Table 10; t is the state after the
fetch and k the words with their addresses. -/
structure Sys2Proof.Claims.Ready (s : State) (c : Cur) (i : Instr) (t : State) (k : List (VA × Word)) : Prop where
  turn : s.turn = .issue c.core c.slot c.b true
  runs : s.runs c = true
  fair : s.heldAt c = true ∨ s.fairTo c = true
  fetched : ∃ (x : Warp) (p : Split) (u : State) (v : Word) (h : Instr) (l : List Word),
    s.warp c.core c.slot = some x ∧ x.split c.b = some p ∧ s.fetch c p.pc = .word u v ∧ decodeHead v.toNat = some h ∧
    decodeFault x.env h = none ∧ u.fetchMore c h.literals (p.pc + 4) [] = .words t l ∧
    (i = if l = [] then h else h.withLiterals (l.getD 0 0) (l.getD 1 0)) ∧ k.length = l.length + 1 ∧
    (∀ w, k[0]? = some w → w = (p.pc, v)) ∧
    ∀ (n : Nat) (w : VA × Word), k[n + 1]? = some w → w = (p.pc + BitVec.ofNat 57 (4 * (n + 1)), l.getD n 0)

/-- The word at the program counter of the split that the turn issues is fetched and is no instruction that may issue: its opcode is
unassigned, or a check of Table 10 fails on it. t is the state after the fetch and z the cause with its word bit (R53, R54). -/
structure Sys2Proof.Claims.Malformed (s : State) (c : Cur) (v : Word) (z : Nat × Nat) (t : State) : Prop where
  turn : s.turn = .issue c.core c.slot c.b true
  runs : s.runs c = true
  fair : s.heldAt c = true ∨ s.fairTo c = true
  fetched : ∃ (x : Warp) (p : Split), s.warp c.core c.slot = some x ∧ x.split c.b = some p ∧ s.fetch c p.pc = .word t v ∧
    ((decodeHead v.toNat = none ∧ z = (0x041, 0)) ∨ ∃ h, decodeHead v.toNat = some h ∧ decodeFault x.env h = some z)

/-- A step at an issue turn is exec of the instruction that decodes at the program counter, whose words the split keeps until it has
done it, and then time passes; an asynchronous cause that is due is delivered instead (R342), a word that is no instruction takes its
decode cause, and a split that may not issue leaves the state as it was but for the time that passes. A turn of an event is exec of the
event, and one of a read performs reads. (The turn and the time that passes are free: log entries 2 and 10; that each turn is one row, the
arbitration and the words fetched ahead are the model's: log entries 33, 6 and 44; a row that is no store or fence ends a warp's run of
stores: log entry 20.) -/
def Sys2Proof.Claims.StepRunsTheDecodedInstruction : Prop :=
  (∀ (s t : State) (c : Cur) (i : Instr) (k : List (VA × Word)), Ready s c i t k → t.deliver c = none →
    step s = turnOver (exec i (((({ t with cur := c } : State).offered c true).keepWords c k).begun i))) ∧
  (∀ (s t u : State) (c : Cur) (i : Instr) (k : List (VA × Word)), Ready s c i t k → t.deliver c = some u →
    step s = .next u.elapse) ∧
  (∀ (s t : State) (c : Cur) (v : Word) (z : Nat × Nat), Malformed s c v z t →
    step s = .next ((t.offered c true).take c (Trap.of z.1 z.2) v).elapse) ∧
  (∀ (s : State) (c w : Nat) (b r : Bool), s.turn = .issue c w b r → s.runs { core := c, slot := w, b := b } = false →
    step s = .next s.elapse) ∧
  (∀ (s : State) (c w : Nat) (b : Bool), s.turn = .issue c w b true → s.heldAt { core := c, slot := w, b := b } = false →
    s.fairTo { core := c, slot := w, b := b } = false → step s = .next s.elapse) ∧
  (∀ (s : State) (c w : Nat) (b : Bool), s.turn = .issue c w b false → s.runs { core := c, slot := w, b := b } = true →
    step s = .next (s.offered { core := c, slot := w, b := b } false).elapse) ∧
  (∀ (s : State) (c w : Nat) (b : Bool), s.turn = .prefetch c w b →
    step s = .next (s.prefetch { core := c, slot := w, b := b }).elapse) ∧
  (∀ (s : State) (c w o : Nat) (l : BitVec 64), s.turn = .read c w o l → step s = .next (({ s with solo := none } : State).performReads c w o l).elapse) ∧
  (∀ (s : State) (i : Instr), s.turn = .event i → encodeHead i = none → step s = turnOver (exec i (s.begun i))) ∧
  (∀ (s : State) (i : Instr), s.turn = .event i → encodeHead i ≠ none → step s = .next s.elapse)

/-- What passes at the end of a step: the next turn, the count of free values, the dies' cycle counts (which never fall, R16) and the
energy meters of the turn's core (R392) and its partition; a structural operation whose drain is over its time ends in its partitions
(R395); memory, every warp and everything else stay. -/
def Sys2Proof.Claims.ElapsedTime : Prop :=
  ∀ s : State,
    let t := s.elapse
    t.mem = s.mem ∧ t.ctrl = s.ctrl ∧ t.cur = s.cur ∧ t.free = s.free + 1 ∧ t.serial = s.serial ∧ t.launches = s.launches ∧ t.loaders = s.loaders ∧ t.lifted = s.lifted ∧
    t.queues = s.queues ∧ t.engOps = s.engOps ∧ t.engQueues = s.engQueues ∧ t.pubs = s.pubs ∧ t.keys = s.keys ∧
    t.lineKeys = s.lineKeys ∧ t.writes = s.writes ∧ t.parked = s.parked ∧ t.logs = s.logs ∧
    (∀ c w, t.slot c w = s.slot c w) ∧
    (∀ c, (t.core c).sram = (s.core c).sram ∧ (t.core c).matrix = (s.core c).matrix ∧ (t.core c).futures = (s.core c).futures ∧
      (t.core c).deque = (s.core c).deque ∧ (t.core c).modes = (s.core c).modes ∧ (t.core c).groups = (s.core c).groups ∧
      (t.core c).rings = (s.core c).rings ∧ (t.core c).tlb = (s.core c).tlb ∧ (t.core c).ileases = (s.core c).ileases ∧
      (t.core c).leases = (s.core c).leases) ∧
    (∀ p, (s.part p).merging = none → (t.part p).quiesce = (s.part p).quiesce ∨
      ∃ a m, (s.part a).merging = some m ∧ m.other = p ∧ m.moved = false ∧ m.until_ < t.timeOf (s.proxyDie a)) ∧
    (∀ p m, (s.part p).merging = some m → m.moved = true → (t.part p).merging = some m) ∧
    ∀ d, (t.die d).up = (s.die d).up ∧ (t.die d).clock = (s.die d).clock ∧ (s.die d).cycles ≤ (t.die d).cycles ∧
      (t.die d).inbox = (s.die d).inbox

/-! ### Fetching -/

/-- Where an address is translated for a fetch, the first of these checks that fails gives the cause (R277, R279, R286): memory is
there, the page is executable, of TYPE 0 and of a key that the fetcher may use, and its line is published to the fetching core, which
may be a firmware core (that the lines of a loaded firmware image read as published: log entry 3). -/
def Sys2Proof.Claims.FetchCauses : Prop :=
  ∀ (s : State) (c : Nat) (w : Who) (l : Leaf),
    (s.populated l.pa = false → s.fetchCause c w l = some (fetchTrap 0x103 l.level)) ∧
    (s.populated l.pa = true → l.x = false → s.fetchCause c w l = some (fetchTrap 0x181 0)) ∧
    (s.populated l.pa = true → l.x = true → l.type ≠ 0 → s.fetchCause c w l = some (fetchTrap 0x185 l.type)) ∧
    (s.populated l.pa = true → l.x = true → l.type = 0 →
      (s.keyOk w l.pa l.key = false → s.fetchCause c w l = some (fetchTrap 0x146 l.level)) ∧
      (s.keyOk w l.pa l.key = true →
        (s.pubOf w (l.pa / 128) = none → s.fetchCause c w l = some (fetchTrap 0x183 0)) ∧
        (s.pubOf w (l.pa / 128) = some .clean → s.fetchCause c w l = none) ∧
        ∀ sc o, s.pubOf w (l.pa / 128) = some (.pub sc o) →
          s.fetchCause c w l = if inScope sc o c then none else some (fetchTrap 0x184 (sc + 256 * originOf o)))) ∧
    (∀ n e, get s.pubs (s.pubKey w n) = some e → s.pubOf w n = some e) ∧
    (∀ n, get s.pubs (s.pubKey w n) = none → s.pubOf w n = if s.imageLine n then some .clean else none) ∧
    (fetchTrap 0x183 0).word = false

/-- A split's next word: the word it has come to issue and not done, as it was fetched (R55, R278); else from the loop buffer while its
address is in the body of the outermost active loop and the buffer holds it, else from the split's fetch buffer, else from memory: waiting
while an acquire of the warp is unperformed, a FENCE is held or an older store of its to that word is not performed, and otherwise the
little-endian word in memory at the translated address, or the cause of its translation or of R277. -/
def Sys2Proof.Claims.FetchedWords : Prop :=
  ∀ (s : State) (c : Cur) (x : Warp) (p : Split) (pc : VA), s.warp c.core c.slot = some x → x.split c.b = some p →
    let w := s.whoOf c.core x
    (∀ v, get p.cur pc = some v → s.fetch c pc = .word s v) ∧
    (∀ v, get p.cur pc = none → x.inLoop pc = true → get x.loopBuf pc.toNat = some v → s.fetch c pc = .word s v) ∧
    (get p.cur pc = none → (x.inLoop pc = false ∨ get x.loopBuf pc.toNat = none) →
      (∀ v, get p.buf pc = some v → s.fetch c pc = .word (s.putWarp c (x.bufferLoop pc v)) v) ∧
      (get p.buf pc = none →
        ((x.fenced s.serial = true ∨ ∃ o ∈ x.ops, o.acq = true ∧ o.performed = false) → s.fetch c pc = .wait) ∧
        (x.fenced s.serial = false → (∀ o ∈ x.ops, o.acq = true → o.performed = true) →
          (x.guarded 2 pc.toNat 4 = false → s.fetch c pc = .cause s (fetchTrap 0x181 0)) ∧
          (x.guarded 2 pc.toNat 4 = true →
            (∀ e, s.translate w (s.tlb c.core) pc.toNat = .error e → s.fetch c pc = .cause s (fetchTrap e.1 e.2)) ∧
            ∀ l : Leaf, s.translate w (s.tlb c.core) pc.toNat = .ok l →
              (∀ t, s.fetchCause c.core w l = some t → s.fetch c pc = .cause s t) ∧
              (s.fetchCause c.core w l = none →
                (x.writing l.pa = true → s.fetch c pc = .wait) ∧
                ∀ (t u : State) (b : List Byte), x.writing l.pa = false →
                  s.load w 0 false l.pa 4 (keyOf l.pa l.key) = some (t, b, none) →
                  u = (t.hold c.core w pc.toNat).codeLease c.core (l.pa / 128) →
                  s.fetch c pc = .word (u.upd c fun y => y.bufferLoop pc (BitVec.ofNat 32 (ofBytes b)))
                    (BitVec.ofNat 32 (ofBytes b)))))))

/-! ### Encodings -/

/-- Words that the spec writes out decode to the instructions they stand for, one family after another (the words are those of the
spec's examples; their fields are read off R37 by hand). -/
def Obligations.ExampleWords : Prop :=
  decodeHead 0x127000A9 = some (.iadd { nw := false, g := 7, neg := false, a := 0, b := 1, d := 20, x := true }) ∧
  decodeHead 0x11701FFB = some (.movi { nw := false, g := 7, neg := false, a := 0, imm := 0x1FFB }) ∧
  decodeHead 0x4370296A = some (.ffma { nw := false, g := 7, neg := false, a := 1, b := 18, c := 53, x := false }) ∧
  decodeHead 0x30727BA4 = some (.icmpW { r := false, g := 7, neg := false, a := 19, b := 55, dp := 2, cc := 2, x := false }) ∧
  decodeHead 0x6E769B8C = some (.stg { r := false, g := 7, neg := false, a := 52, b := 55, base := 1, f := 4 }) ∧
  decodeHead 0x0A700003 = some (.bar { r := false, g := 7, neg := false, a := 0, imm := 3 }) ∧
  decodeHead 0x81E0000A = some (.call { g := 7, neg := false, off := 10 }) ∧
  decodeHead 0x9D700010 = some (.uaddi { nw := false, g := 7, neg := false, a := 0, imm := 16 }) ∧
  decodeHead 0xB0700080 = some (.join { nw := false, g := 7, neg := false, a := 0, b := 1, d := 0, x := false }) ∧
  decodeHead 0xC6700009 = some (.fence { nw := false, g := 7, neg := false, a := 0, imm := 9 }) ∧
  decodeHead 0xE07249A8 = some (.mma { nw := false, g := 7, neg := false, a := 18, b := 19, c := 20, x := false }) ∧
  decodeHead 0xF0700005 = some (.trap { nw := false, g := 7, neg := false, a := 0, imm := 5 }) ∧
  decodeHead 0xFA724980 = some (.rgset { nw := false, g := 7, neg := false, a := 18, b := 19, d := 0, x := false })

/-- Decode of encode is the instruction, with every operand at every value that the fields hold: for every instruction that has a word
and whose one-literal ULDK has no second literal (every well-formed instruction is one), and whatever bytes follow. -/
def Obligations.DecodeOfEncode : Prop :=
  (∀ (i : Instr) (r : List Byte), encodeHead i ≠ none → (∀ f l0 l1, i = .uldk f l0 l1 → f.x = false → l1 = 0) →
    decode (wordBytes (encode i) ++ r) = .ok (i, r)) ∧
  ∀ (e : Env) (i : Instr) (r : List Byte), i.wellFormed e = true → encodeHead i ≠ none →
    decode (wordBytes (encode i) ++ r) = .ok (i, r)

/-- Encode of decode is the word: no word decodes to an instruction of another word, so no two rows of the opcode tables meet and no
bit of a word is dropped; and no word decodes to an event. -/
def Sys2Proof.Claims.EncodeOfDecode : Prop :=
  ∀ (w : Nat) (i : Instr), w < 2 ^ 32 → decodeHead w = some i → encodeHead i = some w

/-- The opcodes that Table 7 and Table 8 mark with a dash: no word of one decodes, whatever its fields, and every word of another
opcode does (R49, R50, R53). -/
def Sys2Proof.Claims.UnassignedOpcodes : Prop :=
  ∀ w < 2 ^ 32,
    let op := w / 2 ^ 24
    decodeHead w = none ↔
      op ∈ [0x3F, 0x5D, 0x5E, 0x5F, 0x63, 0x69, 0x6A, 0x6B, 0x7C, 0x7D] ∨ (0x87 ≤ op ∧ op ≤ 0x8F) ∨ (0xAA ≤ op ∧ op ≤ 0xAF) ∨
      (0xB6 ≤ op ∧ op ≤ 0xBF) ∨ (0xCB ≤ op ∧ op ≤ 0xCF) ∨ (0xD4 ≤ op ∧ op ≤ 0xDF) ∨ (0xEC ≤ op ∧ op ≤ 0xEF) ∨ 0xFB ≤ op

/-! ### The whole machine -/

/-- A state whose memories are all in canonical form: HBM4E, control space and every core's scratchpad. -/
def Sys2Proof.Claims.Canonical (s : State) : Prop :=
  Memory.wf s.mem = true ∧ Memory.wf s.ctrl = true ∧ ∀ c, Memory.wf (s.core c).sram = true

/-- From every state whose memories are in canonical form, whatever the turn and the word, a step that ends in a next state ends in
one whose memories are: so memories that read alike are equal data. -/
def Obligations.StepsKeepMemoriesCanonical : Prop := ∀ s t : State, Canonical s → step s = .next t → Canonical t

/-- A step never ends in a fault, and ends in a refusal only where a firmware core issues a word of a compute core's own unit (log
entry 32 names these words). -/
def Sys2Proof.Claims.StepsGoOn : Prop :=
  ∀ s : State, (∃ t, step s = .next t) ∨ ∃ c w b op, s.turn = .issue c w b true ∧ 512 ≤ c ∧ step s = .refused (.firmwareUnit op)

/-- Where the issuing warp is replaced, nothing else of the machine changes: the frame of every instruction that a statement shows to
end in `putWarp`. Memory, control space, scratchpads, the core's own units, every other warp, the other cores and every register
outside the warp stay as they were. -/
def Sys2Proof.Claims.FrameOfTheIssuingWarp : Prop :=
  ∀ (s : State) (c : Cur) (x y : Warp), s.warp c.core c.slot = some x →
    let t := s.putWarp c y
    t.warp c.core c.slot = some y ∧ (∀ d w, (d, w) ≠ (c.core, c.slot) → t.warp d w = s.warp d w) ∧
    (∀ d, d ≠ c.core → t.core d = s.core d) ∧
    (∀ d w, (t.slot d w).map (fun e => { e with warp := none }) = (s.slot d w).map fun e => { e with warp := none }) ∧
    t.core c.core = { s.core c.core with slots := (t.core c.core).slots } ∧ t = { s with cores := t.cores }

/-- Right after reset (R401, R402, R405, R16, R381): memory is zero, no partition is enabled, no queue, launch or engine operation is
there, the compute cores have no warp, CACHE modes and an empty deque, every die's firmware cores stand at the firmware entry at level
0, its count is 0 and its firmware was accepted. (The model's reset is the fault-free bring-up, log entry 3; that
regions 1 to 3 and scratchpads are zero, the CACHE modes, how far the dies' counts stand apart and where a firmware core stands in the
list of cores are its choices: log entries 1, 7, 10 and 35.) -/
def Obligations.ResetValues : Prop :=
  let s := State.reset
  Canonical s ∧ (∀ a, memGet s.mem a = 0) ∧ (∀ p, (s.part p).en = false) ∧ s.queues = [] ∧ s.launches = [] ∧ s.engOps = [] ∧
  s.pubs = [] ∧ s.keys = [] ∧ s.loaders = [] ∧ s.parked = [] ∧ s.lifted = [] ∧ s.comms = [] ∧
  (∀ c < 512, ∀ w, s.slot c w = none) ∧
  (∀ c < 512, (s.core c).modes = [0, 0, 0, 0] ∧ (s.core c).deque = [] ∧ (s.core c).groups = [] ∧ (s.core c).matrix = Matrix.clear ∧
    (s.core c).lsteal = 1 ∧ (s.core c).xsteal = 4) ∧
  (∀ i < 32, ∃ (x : Warp) (f : Fw), s.warp (512 + i) 0 = some x ∧ x.fw = some f ∧ f.level = 0 ∧ x.width = 0 ∧
    x.a = some (Split.start (BitVec.ofNat 57 (f.vec.toNat + 0xD000)) 0) ∧ x.b = none) ∧
  ∀ d < 8, (s.die d).up = true ∧ s.timeOf d = 0 + Config.dieSkew d % 65

/-- The values of source codes (Table 3a of R41): queue places, named registers, latches, the constants of integer opcodes (those of
other formats follow below), the low half of k0 to k3 in every lane, and the lane index. -/
def Obligations.SourceCodes : Prop :=
  (∀ (x : Warp) (p : Split) (k : Const) (l n : Nat) (a : Lane), x.lanes[l]? = some a →
    (n < 16 → x.val p k n l = (a.q.getD n (Cell32.of 0)).v) ∧
    (n < 32 → x.val p k (16 + n) l = (a.v.getD n (Cell32.of 0)).v) ∧
    (n < 4 → x.val p k (48 + n) l = ((p.l.getD n LatchL.empty).cells.getD l (Cell32.of 0)).v) ∧
    (n < 4 → x.val p k (52 + n) l = k.word n) ∧
    (n < 4 → x.val p k (56 + n) l = (x.k.getD n (Cell64.of 0)).v.setWidth 32) ∧
    x.val p k 60 l = BitVec.ofNat 32 l) ∧
  (∀ (x : Warp) (p : Split) (n : Nat),
    (n < 16 → x.uval p n = (x.k.getD n (Cell64.of 0)).v) ∧
    (n < 32 → x.uval p (16 + n) = (x.s.getD n (Cell64.of 0)).v) ∧
    (n < 4 → x.uval p (48 + n) = (p.m.getD n LatchM.empty).cell.v) ∧
    x.uval p 52 = 0 ∧ x.uval p 53 = 1 ∧ x.uval p 54 = -1 ∧ x.uval p 55 = 2) ∧
  (∀ k : Const, k.word 0 = 0) ∧
  (∀ w, w = 8 ∨ w = 16 ∨ w = 32 → ∀ e < 32 / w,
    ((Const.int w).word 1).extractLsb' (w * e) w = 1 ∧ ((Const.int w).word 2).extractLsb' (w * e) w = -1 ∧
    ((Const.int w).word 3).extractLsb' (w * e) w = 2) ∧
  (∀ (k : Const) (c n : Nat), (k, c, n) ∈ [(Const.f32, 0, 32), (.bf16, 1, 16), (.f16, 2, 16), (.e4m3, 3, 8), (.e5m2, 4, 8),
      (.e3m2, 5, 8), (.e2m3, 6, 8), (.e2m1, 7, 4)] →
    ∀ e < 32 / n, ∀ i ∈ [1, 2, 3], ∃ (m : Nat) (z : Int),
      (floatFmt c).unpack ((k.word i).extractLsb' (n * e) n).toNat = .fin (i == 2) m z ∧
        (m : ℚ) * 2 ^ z = if i = 3 then 2 else 1)

/-- Words of a compute core's own unit on a firmware core, for which the spec gives no effect there: with a true guard they take 0x141
at level 2 (R380) and are refused at the other levels; and what the words that read the state of such a unit push there is free, in the
fields of their layouts, but for selectors that name nothing (the model's choices: log entry 32). -/
def Sys2Proof.Claims.UnitWordsOnFirmwareCores : Prop :=
  (∀ (s : State) (x : Warp) (p : Split) (w : Fw) (f : Fmt3) (h : Fmt4) (i : FmtI), At s x p → 512 ≤ s.cur.core → x.fw = some w →
    let stops (j : Instr) (g : BitVec 3) (neg : Bool) (op : Nat) : Prop := x.cguard g neg = true →
      (w.level = 2 → exec j s = .next ((s.clearFor s.cur j).take s.cur (Trap.of 0x141 0) (wordOf j))) ∧
      (w.level ≠ 2 → exec j s = .refused (.firmwareUnit op))
    (∀ e ∈ [(Instr.mload f, 0x64), (.mstore f, 0x65), (.mres f, 0x66), (.mresq f, 0x67), (.mzero f, 0x6B), (.bankset f, 0x76)],
      stops e.1 f.g f.neg e.2) ∧
    (∀ e ∈ [(Instr.cpy h, 0x50), (.cpy2d h, 0x51), (.coll h, 0x52), (.mma h, 0x60), (.mmat h, 0x61), (.mperm h, 0x62), (.mred h, 0x63),
        (.mgrad h, 0x6A)], stops e.1 h.g h.neg e.2) ∧
    stops (.qfence i) i.g i.neg 0x49 ∧
    (x.inHandler = true → ∀ e ∈ [(Instr.savec f, 0x72), (.rstc f, 0x73), (.sigs f, 0x74)], stops e.1 f.g f.neg e.2) ∧
    (x.cguard f.g f.neg = true → w.level = 2 → TakesAt (.eqstat f) s s (Trap.of 0x141 0))) ∧
  ∀ (s : State) (x : Warp) (p : Split) (f : Fmt3), At s x p → 512 ≤ s.cur.core →
    let g := x.cguard f.g f.neg
    let a := (x.uval p f.a.toNat).toNat % 256
    let gives (i : Instr) (fields : DWord) : Prop := ∃ v : DWord, v &&& ~~~fields = 0 ∧ GivesUni i s x p f.nw f.d.toNat g v 4
    gives (.dqlen f) 0xFFF01FF01FF ∧ gives (.tself f) 0x1FFFFFFFF ∧
    (UniReadable x p g [f.a.toNat] →
      gives (.bankq f) (if a < 4 then 0xFFFF000007 else if a = 0x10 then 0xFFFFFFFFFFFF else if 0x20 ≤ a ∧ a < 0x40 then 0x3FFF else 0) ∧
      ((∀ w, x.fw = some w → w.level ≠ 2) → gives (.eqstat f) (if a < 4 ∨ a = 0x10 ∨ a = 0x11 then 0xFFFF0001007F else 0)))

/-- The decode causes of a word (R53, R54), for one family of each kind: the two-source lane integer words, where an illegal field comes
before an undeclared register and the field whose lowest bit is lowest is reported; a latch as a source of a word of the switching class
(the lane loads); and the firmware core's words elsewhere. -/
def Sys2Proof.Claims.DecodeCauses : Prop :=
  (∀ (e : Env) (f : Fmt3), ∀ i ∈ [Instr.iadd f, .isub f, .imul f, .imulh f, .imin f, .imax f, .and f, .or f, .xor f, .andn f, .shl f,
      .shr f, .sar f, .rot f],
    let a := f.a.toNat
    let b := f.b.toNat
    let d := f.d.toNat
    let named (c : Nat) : Prop := c < 16 ∨ 48 ≤ c ∨ c - 16 < e.nv ∨ (e.handler = true ∧ 40 ≤ c)
    decodeFault e i =
      if e.firmware = true then some (0x041, 0)
      else if (f.nw = true ∧ d ≠ 0) ∨ (d ≠ 0 ∧ (d < 16 ∨ 48 ≤ d)) then some (0x042, 1)
      else if 61 ≤ b then some (0x042, 7)
      else if 61 ≤ a then some (0x042, 13)
      else if f.g = 7 ∧ f.neg = true then some (0x042, 19)
      else if ¬ named d then some (0x043, 1)
      else if ¬ named b then some (0x043, 7)
      else if ¬ named a then some (0x043, 13)
      else none) ∧
  (∀ (e : Env) (f : FmtM), e.firmware = false → f.r = false → f.b = 0 → f.f ≠ 7 → f.base.toNat < e.ns → (f.g ≠ 7 ∨ f.neg = false) →
    48 ≤ f.a.toNat → f.a.toNat < 52 → decodeFault e (.ldg f) = some (0x043, 13)) ∧
  ∀ (e : Env) (f : Fmt3), e.firmware = false → ∀ i ∈ [Instr.lvcall f, .lvret f, .rgset f], decodeFault e i = some (0x141, 0)

/-! ### The statements, from the parts above -/

/-- Lane integer arithmetic, logic, shifts and bit fields: every form, result and frame. -/
def Obligations.LaneIntegers : Prop :=
  Sys2Proof.Claims.LaneIntegerPairs ∧ Sys2Proof.Claims.LaneShiftsAndFields ∧ Sys2Proof.Claims.LaneIntegerOthers

/-- Integer and floating compares write a lane predicate and nothing else but raised flags. -/
def Obligations.LaneCompares : Prop :=
  Sys2Proof.Claims.LaneIntegerCompares ∧ Sys2Proof.Claims.LaneFloatCompares ∧ Sys2Proof.Claims.FloatConditions

/-- Predicate logic and moves, SEL, VOTE and MATCH. -/
def Obligations.LanePredicates : Prop :=
  Sys2Proof.Claims.LanePredicateLogic ∧ Sys2Proof.Claims.VoteAndMatch

/-- Shuffles, RDLANE, WRLANE, TAGSET and TAGV. -/
def Obligations.LaneMoves : Prop :=
  Sys2Proof.Claims.LaneShuffles ∧ Sys2Proof.Claims.LaneTransfers

/-- REDX of a warp and of a group, and SCAN. -/
def Obligations.Reductions : Prop :=
  Sys2Proof.Claims.ReductionsAndScans ∧ Sys2Proof.Claims.GroupReductions

/-- Rounded floating instructions, minimum, maximum and DOT4 on every form. -/
def Obligations.FloatWords : Prop :=
  Sys2Proof.Claims.FloatArithmetic ∧ Sys2Proof.Claims.FloatMinMaxDot

/-- The special functions on every source, and their special values. -/
def Obligations.SpecialFunctionWords : Prop :=
  Sys2Proof.Claims.SpecialFunctions ∧ Sys2Proof.Claims.SpecialFunctionCorners

/-- NaNs, invalid operations, zero sums and finite overflow. -/
def Obligations.FloatCorners : Prop :=
  Sys2Proof.Claims.FloatSpecialValues ∧ Sys2Proof.Claims.FiniteOverflow

/-- CVT, CVTP, CVTU, FRND, I2F, F2I, MXQ and MXD. -/
def Obligations.ConversionWords : Prop :=
  Sys2Proof.Claims.Conversions ∧ Sys2Proof.Claims.PackedConversions ∧ Sys2Proof.Claims.BlockConversions

/-- Uniform integer instructions, ULDK, UCMP, UPLOG and USEL: result and frame. -/
def Obligations.UniformWords : Prop :=
  Sys2Proof.Claims.UniformIntegers ∧ Sys2Proof.Claims.UniformOthers

/-- IF, ELSE, ENDIF, DO, ENDDO, BRK and CONT: counters, skips and 0x2C1. -/
def Obligations.NestingWords : Prop :=
  Sys2Proof.Claims.IfElseEndif ∧ Sys2Proof.Claims.DoEnddoBrkCont

/-- BRA, CALL, CALLI, RET, BRI and HLOOP, with the causes they take. -/
def Obligations.BranchWords : Prop :=
  Sys2Proof.Claims.OffsetBranches ∧ Sys2Proof.Claims.RegisterBranches ∧ Sys2Proof.Claims.CountedLoops

/-- NOP, TRIG, YIELD, EXIT and GANG. -/
def Obligations.SmallFlowWords : Prop :=
  Sys2Proof.Claims.NopTrigYieldExit ∧ Sys2Proof.Claims.Gangs

/-- MFS and MTS of every special register. -/
def Obligations.SpecialRegisters : Prop :=
  Sys2Proof.Claims.SpecialRegisterReads ∧ Sys2Proof.Claims.SpecialRegisterWrites

/-- BRX divides a split and RCV joins it. -/
def Obligations.Divergence : Prop :=
  Sys2Proof.Claims.BranchDivergence ∧ Sys2Proof.Claims.SplitAreas ∧ Sys2Proof.Claims.Reconvergence

/-- LDS, STS and ATS: windows, causes and the operation left in flight. -/
def Obligations.ScratchpadWords : Prop :=
  Sys2Proof.Claims.ScratchpadAccesses ∧ Sys2Proof.Claims.ScratchpadWindows

/-- FPUSH, FPOP, FPEEK and WAITC. -/
def Obligations.RingAndCounterWords : Prop :=
  Sys2Proof.Claims.RingWords ∧ Sys2Proof.Claims.CounterWaits

/-- BANKSET and BANKQ, and what the queue controller does with a BANKSET. -/
def Obligations.BankWordsAndModes : Prop :=
  Sys2Proof.Claims.BankWords ∧ Sys2Proof.Claims.ModeChanges

/-- LDG, LDGA, STG, STGL, ATG, REDG and PREF: causes and the operation left in flight. -/
def Obligations.GlobalWords : Prop :=
  Sys2Proof.Claims.GlobalLoadsAndStores ∧ Sys2Proof.Claims.GlobalAtomics ∧ Sys2Proof.Claims.Prefetches

/-- LDU, STU and ATU on a compute core and on a firmware core. -/
def Obligations.UniformMemory : Prop :=
  Sys2Proof.Claims.UniformMemoryWords ∧ Sys2Proof.Claims.FirmwareAccesses

/-- JOIN, FTEST and FCANCEL, and the checks of a handle. -/
def Obligations.JoinWords : Prop :=
  Sys2Proof.Claims.HandleChecks ∧ Sys2Proof.Claims.Joins ∧ Sys2Proof.Claims.FutureTests

/-- FENCE, QFENCE and WAITV: what each waits for. -/
def Obligations.OrderingWords : Prop :=
  Sys2Proof.Claims.Fences ∧ Sys2Proof.Claims.QueueFences ∧ Sys2Proof.Claims.WaitsForValue

/-- XPUB and XPROBE, and the state of a line after XPUB. -/
def Obligations.PublishWords : Prop :=
  Sys2Proof.Claims.PublishStates ∧ Sys2Proof.Claims.Publishing ∧ Sys2Proof.Claims.PublishProbes

/-- CPY, CPY2D and COLL: checks and the command on its way. -/
def Obligations.EngineCommands : Prop :=
  Sys2Proof.Claims.CopyCommands ∧ Sys2Proof.Claims.CollectiveCommands

/-- MLOAD, MSTORE, MRES and MZERO, and the array's effects. -/
def Obligations.ArrayWords : Prop :=
  Sys2Proof.Claims.ArrayWords ∧ Sys2Proof.Claims.ArrayEffects

/-- MRESQ, MFENCE and MWAIT. -/
def Obligations.ArrayReadsAndBatches : Prop :=
  Sys2Proof.Claims.ArrayReads ∧ Sys2Proof.Claims.ArrayBatches

/-- MMA, MMAT, MPERM, MRED and MGRAD; their control words and constant matrices. -/
def Obligations.GangedWords : Prop :=
  Sys2Proof.Claims.GangedWords ∧ Sys2Proof.Claims.ControlWords ∧ Sys2Proof.Claims.ConstantMatrices

/-- Taking a cause: in a handler's kernel, without a handler, and on a firmware core. -/
def Obligations.Traps : Prop :=
  Sys2Proof.Claims.TrapEntry ∧ Sys2Proof.Claims.Mismatches ∧ Sys2Proof.Claims.UnhandledCauses ∧ Sys2Proof.Claims.FirmwareCauses

/-- TRAP, BKPT, ERET, SAVEC, RSTC and SIGS. -/
def Obligations.TrapWords : Prop :=
  Sys2Proof.Claims.SoftwareTraps ∧ Sys2Proof.Claims.TrapReturns ∧ Sys2Proof.Claims.ContextWords

/-- LVCALL, LVRET and RGSET; words of a unit that a firmware core lacks. -/
def Obligations.FirmwareWords : Prop :=
  Sys2Proof.Claims.LevelWords ∧ Sys2Proof.Claims.UnitWordsOnFirmwareCores

/-- Loads return, stores are performed and rings move, lane by lane. -/
def Obligations.MemoryRows : Prop :=
  Sys2Proof.Claims.ScratchpadPerformed ∧ Sys2Proof.Claims.GlobalPerformed ∧ Sys2Proof.Claims.RingsPerformed

/-- Barrier phases, blocked joins, waits, slots, and the start and end of tasks. -/
def Obligations.SlotRows : Prop :=
  Sys2Proof.Claims.SlotRows ∧ Sys2Proof.Claims.TaskRows

/-- Engine operations and the matrix array move. -/
def Obligations.EngineAndArrayRows : Prop :=
  Sys2Proof.Claims.EngineRows ∧ Sys2Proof.Claims.ArrayRows

/-- Pre-emption, debug stops and restored contexts. -/
def Obligations.ContextRows : Prop :=
  Sys2Proof.Claims.PreemptionRows ∧ Sys2Proof.Claims.DebugRows ∧ Sys2Proof.Claims.ContextRestores

/-- Doorbells, polls, progress and life of command queues. -/
def Obligations.QueueRows : Prop :=
  Sys2Proof.Claims.DoorbellRows ∧ Sys2Proof.Claims.QueueProgressRows ∧ Sys2Proof.Claims.QueueLifeRows

/-- Which packet starts, and what each type starts. -/
def Obligations.PacketRows : Prop :=
  Sys2Proof.Claims.PacketOrder ∧ Sys2Proof.Claims.PacketRows ∧ Sys2Proof.Claims.BufferRows

/-- Launches: headers, starting, placing and completing. -/
def Obligations.LaunchRows : Prop :=
  Sys2Proof.Claims.LaunchRows ∧ Sys2Proof.Claims.KernelHeaders ∧ Sys2Proof.Claims.PlacementRows

/-- Writes of control registers, monitors, refusals and meters. -/
def Obligations.RegisterRows : Prop :=
  Sys2Proof.Claims.RegisterRows ∧ Sys2Proof.Claims.MonitorRows

/-- Merging and splitting partitions, bring-up, attestation, power. -/
def Obligations.PlatformRows : Prop :=
  Sys2Proof.Claims.StructuralRows ∧ Sys2Proof.Claims.PlatformRows

/-- A step runs the instruction that decodes at the program counter, and then time passes. -/
def Obligations.StepRunsTheDecodedInstruction : Prop :=
  Sys2Proof.Claims.StepRunsTheDecodedInstruction ∧ Sys2Proof.Claims.ElapsedTime

/-- What a split fetches, and the causes of fetching in their order. -/
def Obligations.FetchedWords : Prop :=
  Sys2Proof.Claims.FetchCauses ∧ Sys2Proof.Claims.FetchedWords

/-- Encode of decode is the word; dashes decode to nothing; the decode causes. -/
def Obligations.EncodeOfDecode : Prop :=
  Sys2Proof.Claims.EncodeOfDecode ∧ Sys2Proof.Claims.UnassignedOpcodes ∧ Sys2Proof.Claims.DecodeCauses

/-- A step never faults, and the frame of the issuing warp. -/
def Obligations.StepsGoOn : Prop :=
  Sys2Proof.Claims.StepsGoOn ∧ Sys2Proof.Claims.FrameOfTheIssuingWarp
end

