-- ==== Sys2Proof/Laws/Encoding.lean ====
section
/-! SUPPORT. Formats: the fields of an encoded word are those of the format, and a word is the encoding of its fields (R37). -/

namespace Sys2Proof.Laws

open Sys2Proof

theorem bit_lt (b : Bool) : bit b < 2 := by cases b <;> decide

theorem flag_of {i w : Nat} {b : Bool} (h : w / 2 ^ i % 2 = bit b) : flag i w = b := by
  cases b <;> simp_all [flag, bit]

theorem field_of {n lo w : Nat} {v : BitVec n} (h : w / 2 ^ lo % 2 ^ n = v.toNat) : field n lo w = v := by
  apply BitVec.eq_of_toNat_eq
  simpa [field] using h

theorem bit_flag (i w : Nat) : bit (flag i w) = w / 2 ^ i % 2 := by
  have : w / 2 ^ i % 2 < 2 := Nat.mod_lt _ (by decide)
  generalize hz : w / 2 ^ i % 2 = z at this
  simp only [flag, bit, hz]
  interval_cases z <;> rfl

theorem field_toNat (n lo w : Nat) : (field n lo w).toNat = w / 2 ^ lo % 2 ^ n := by simp [field]

theorem opWord_set (s o l : Nat) (hs : s < 2) (ho : o < 128) (hl : l < 2 ^ 24) : flag 31 (opWord s o l) = (s == 1) := by
  simp only [flag, opWord]; congr 1; omega

theorem opWord_op (s o l : Nat) (ho : o < 128) (hl : l < 2 ^ 24) : bitsOf 7 24 (opWord s o l) = o := by
  simp only [bitsOf, opWord]; omega

theorem opWord_parts (w : Nat) (h : w < 2 ^ 32) : opWord (w / 2 ^ 31) (bitsOf 7 24 w) (w % 2 ^ 24) = w := by
  simp only [opWord, bitsOf]; omega

theorem enc3_lt (f : Fmt3) : enc3 f < 2 ^ 24 := by
  have hnw := bit_lt f.nw
  have hg := f.g.isLt
  have hneg := bit_lt f.neg
  have ha := f.a.isLt
  have hb := f.b.isLt
  have hd := f.d.isLt
  have hx := bit_lt f.x
  simp only [enc3]; omega

theorem fmt3_enc3 (s o : Nat) (f : Fmt3) : fmt3 (opWord s o (enc3 f)) = f := by
  have hnw := bit_lt f.nw
  have hg := f.g.isLt
  have hneg := bit_lt f.neg
  have ha := f.a.isLt
  have hb := f.b.isLt
  have hd := f.d.isLt
  have hx := bit_lt f.x
  cases f
  simp only [fmt3, opWord, enc3] at *
  congr 1
  · apply flag_of; omega
  · apply field_of; omega
  · apply flag_of; omega
  · apply field_of; omega
  · apply field_of; omega
  · apply field_of; omega
  · apply flag_of; omega

theorem enc3_fmt3 (w : Nat) : enc3 (fmt3 w) = w % 2 ^ 24 := by
  simp only [enc3, fmt3, bit_flag, field_toNat]; omega

theorem enc4_lt (f : Fmt4) : enc4 f < 2 ^ 24 := by
  have hnw := bit_lt f.nw
  have hg := f.g.isLt
  have hneg := bit_lt f.neg
  have ha := f.a.isLt
  have hb := f.b.isLt
  have hc := f.c.isLt
  have hx := bit_lt f.x
  simp only [enc4]; omega

theorem fmt4_enc4 (s o : Nat) (f : Fmt4) : fmt4 (opWord s o (enc4 f)) = f := by
  have hnw := bit_lt f.nw
  have hg := f.g.isLt
  have hneg := bit_lt f.neg
  have ha := f.a.isLt
  have hb := f.b.isLt
  have hc := f.c.isLt
  have hx := bit_lt f.x
  cases f
  simp only [fmt4, opWord, enc4] at *
  congr 1
  · apply flag_of; omega
  · apply field_of; omega
  · apply flag_of; omega
  · apply field_of; omega
  · apply field_of; omega
  · apply field_of; omega
  · apply flag_of; omega

theorem enc4_fmt4 (w : Nat) : enc4 (fmt4 w) = w % 2 ^ 24 := by
  simp only [enc4, fmt4, bit_flag, field_toNat]; omega

theorem encI_lt (f : FmtI) : encI f < 2 ^ 24 := by
  have hnw := bit_lt f.nw
  have hg := f.g.isLt
  have hneg := bit_lt f.neg
  have ha := f.a.isLt
  have himm := f.imm.isLt
  simp only [encI]; omega

theorem fmtI_encI (s o : Nat) (f : FmtI) : fmtI (opWord s o (encI f)) = f := by
  have hnw := bit_lt f.nw
  have hg := f.g.isLt
  have hneg := bit_lt f.neg
  have ha := f.a.isLt
  have himm := f.imm.isLt
  cases f
  simp only [fmtI, opWord, encI] at *
  congr 1
  · apply flag_of; omega
  · apply field_of; omega
  · apply flag_of; omega
  · apply field_of; omega
  · apply field_of; omega

theorem encI_fmtI (w : Nat) : encI (fmtI w) = w % 2 ^ 24 := by
  simp only [encI, fmtI, bit_flag, field_toNat]; omega

theorem encP_lt (f : FmtP) : encP f < 2 ^ 24 := by
  have hr := bit_lt f.r
  have hg := f.g.isLt
  have hneg := bit_lt f.neg
  have ha := f.a.isLt
  have hb := f.b.isLt
  have hdp := f.dp.isLt
  have hcc := f.cc.isLt
  have hx := bit_lt f.x
  simp only [encP]; omega

theorem fmtP_encP (s o : Nat) (f : FmtP) : fmtP (opWord s o (encP f)) = f := by
  have hr := bit_lt f.r
  have hg := f.g.isLt
  have hneg := bit_lt f.neg
  have ha := f.a.isLt
  have hb := f.b.isLt
  have hdp := f.dp.isLt
  have hcc := f.cc.isLt
  have hx := bit_lt f.x
  cases f
  simp only [fmtP, opWord, encP] at *
  congr 1
  · apply flag_of; omega
  · apply field_of; omega
  · apply flag_of; omega
  · apply field_of; omega
  · apply field_of; omega
  · apply field_of; omega
  · apply field_of; omega
  · apply flag_of; omega

theorem encP_fmtP (w : Nat) : encP (fmtP w) = w % 2 ^ 24 := by
  simp only [encP, fmtP, bit_flag, field_toNat]; omega

theorem encV_lt (f : FmtV) : encV f < 2 ^ 24 := by
  have hnw := bit_lt f.nw
  have hg := f.g.isLt
  have hneg := bit_lt f.neg
  have ha := f.a.isLt
  have hsf := f.sf.isLt
  have hdf := f.df.isLt
  have hrm := f.rm.isLt
  have hsat := bit_lt f.sat
  have hx := bit_lt f.x
  simp only [encV]; omega

theorem fmtV_encV (s o : Nat) (f : FmtV) : fmtV (opWord s o (encV f)) = f := by
  have hnw := bit_lt f.nw
  have hg := f.g.isLt
  have hneg := bit_lt f.neg
  have ha := f.a.isLt
  have hsf := f.sf.isLt
  have hdf := f.df.isLt
  have hrm := f.rm.isLt
  have hsat := bit_lt f.sat
  have hx := bit_lt f.x
  cases f
  simp only [fmtV, opWord, encV] at *
  congr 1
  · apply flag_of; omega
  · apply field_of; omega
  · apply flag_of; omega
  · apply field_of; omega
  · apply field_of; omega
  · apply field_of; omega
  · apply field_of; omega
  · apply flag_of; omega
  · apply flag_of; omega

theorem encV_fmtV (w : Nat) : encV (fmtV w) = w % 2 ^ 24 := by
  simp only [encV, fmtV, bit_flag, field_toNat]; omega

theorem encM_lt (f : FmtM) : encM f < 2 ^ 24 := by
  have hr := bit_lt f.r
  have hg := f.g.isLt
  have hneg := bit_lt f.neg
  have ha := f.a.isLt
  have hb := f.b.isLt
  have hbase := f.base.isLt
  have hf := f.f.isLt
  simp only [encM]; omega

theorem fmtM_encM (s o : Nat) (f : FmtM) : fmtM (opWord s o (encM f)) = f := by
  have hr := bit_lt f.r
  have hg := f.g.isLt
  have hneg := bit_lt f.neg
  have ha := f.a.isLt
  have hb := f.b.isLt
  have hbase := f.base.isLt
  have hf := f.f.isLt
  cases f
  simp only [fmtM, opWord, encM] at *
  congr 1
  · apply flag_of; omega
  · apply field_of; omega
  · apply flag_of; omega
  · apply field_of; omega
  · apply field_of; omega
  · apply field_of; omega
  · apply field_of; omega

theorem encM_fmtM (w : Nat) : encM (fmtM w) = w % 2 ^ 24 := by
  simp only [encM, fmtM, bit_flag, field_toNat]; omega

theorem encL_lt (f : FmtL) : encL f < 2 ^ 24 := by
  have hr := bit_lt f.r
  have hg := f.g.isLt
  have hneg := bit_lt f.neg
  have ha := f.a.isLt
  have himm := f.imm.isLt
  simp only [encL]; omega

theorem fmtL_encL (s o : Nat) (f : FmtL) : fmtL (opWord s o (encL f)) = f := by
  have hr := bit_lt f.r
  have hg := f.g.isLt
  have hneg := bit_lt f.neg
  have ha := f.a.isLt
  have himm := f.imm.isLt
  cases f
  simp only [fmtL, opWord, encL] at *
  congr 1
  · apply flag_of; omega
  · apply field_of; omega
  · apply flag_of; omega
  · apply field_of; omega
  · apply field_of; omega

theorem encL_fmtL (w : Nat) : encL (fmtL w) = w % 2 ^ 24 := by
  simp only [encL, fmtL, bit_flag, field_toNat]; omega

theorem encB_lt (f : FmtB) : encB f < 2 ^ 24 := by
  have hg := f.g.isLt
  have hneg := bit_lt f.neg
  have hoff := f.off.isLt
  simp only [encB]; omega

theorem fmtB_encB (s o : Nat) (f : FmtB) : fmtB (opWord s o (encB f)) = f := by
  have hg := f.g.isLt
  have hneg := bit_lt f.neg
  have hoff := f.off.isLt
  cases f
  simp only [fmtB, opWord, encB] at *
  congr 1
  · apply field_of; omega
  · apply flag_of; omega
  · apply field_of; omega

theorem encB_fmtB (w : Nat) : encB (fmtB w) = w % 2 ^ 24 := by
  simp only [encB, fmtB, bit_flag, field_toNat]; omega

end Sys2Proof.Laws
end

