-- ==== Sys2Proof/Laws/Memory.lean ====
section
/-! SUPPORT. Memory: every operation keeps the canonical form; what a byte reads as after a write; equal reads are equal data. -/

namespace Sys2Proof.Laws

open Sys2Proof Sys2Proof.Machine

theorem memFrom_mono {m : List Host.Cell} {a b : Nat} (hb : b ≤ a) (h : memFrom a m = true) : memFrom b m = true := by
  cases m with
  | nil => rfl
  | cons c r => simp only [memFrom, Bool.and_eq_true, decide_eq_true_eq] at h ⊢; exact ⟨⟨by omega, h.1.2⟩, h.2⟩

theorem memFrom_memSet {m : List Host.Cell} {lo : Nat} (h : memFrom lo m = true) {a : Nat} (ha : lo ≤ a) (v : Byte) :
    memFrom lo (memSet m a v) = true := by
  induction m generalizing lo with
  | nil => simp only [memSet]; split <;> simp_all [memFrom]
  | cons c r ih =>
    simp only [memFrom, Bool.and_eq_true, decide_eq_true_eq] at h
    simp only [memSet]
    split
    · simp only [memFrom, Bool.and_eq_true, decide_eq_true_eq]; exact ⟨h.1, ih h.2 (by omega)⟩
    · split
      · subst_vars
        split
        · exact memFrom_mono (by omega) h.2
        · simp only [memFrom, Bool.and_eq_true, decide_eq_true_eq]; exact ⟨⟨ha, ‹_›⟩, h.2⟩
      · split
        · simp only [memFrom, Bool.and_eq_true, decide_eq_true_eq]; exact h
        · simp only [memFrom, Bool.and_eq_true, decide_eq_true_eq]
          exact ⟨⟨ha, ‹_›⟩, ⟨by omega, h.1.2⟩, h.2⟩

/-- A write of one byte keeps the canonical form. -/
theorem wf_memSet {m : List Host.Cell} (h : Memory.wf m = true) (a : Nat) (v : Byte) : Memory.wf (memSet m a v) = true :=
  memFrom_memSet h (Nat.zero_le a) v

/-- A write of a run of bytes keeps the canonical form. -/
theorem wf_memWrite {m : List Host.Cell} (h : Memory.wf m = true) (a : Nat) (b : List Byte) : Memory.wf (memWrite m a b) = true := by
  induction b generalizing m a with
  | nil => exact h
  | cons v r ih => exact ih (wf_memSet h a v) _

/-- A write of bytes at offsets keeps the canonical form. -/
theorem wf_memPatch {m : List Host.Cell} (h : Memory.wf m = true) (a : Nat) (l : List (Nat × Byte)) : Memory.wf (memPatch m a l) = true := by
  unfold memPatch
  induction l generalizing m with
  | nil => exact h
  | cons v r ih => exact ih (wf_memSet h _ _)

theorem memFrom_filter {m : List Host.Cell} {lo : Nat} (h : memFrom lo m = true) (f : Host.Cell → Bool) :
    memFrom lo (m.filter f) = true := by
  induction m generalizing lo with
  | nil => rfl
  | cons c r ih =>
    simp only [memFrom, Bool.and_eq_true, decide_eq_true_eq] at h
    simp only [List.filter_cons]
    split
    · simp only [memFrom, Bool.and_eq_true, decide_eq_true_eq]; exact ⟨h.1, ih h.2⟩
    · exact memFrom_mono (by omega) (ih h.2)

/-- Dropping bytes keeps the canonical form. -/
theorem wf_filter {m : List Host.Cell} (h : Memory.wf m = true) (f : Host.Cell → Bool) : Memory.wf (m.filter f) = true :=
  memFrom_filter h f

theorem memGet_below {m : List Host.Cell} {lo a : Nat} (h : memFrom lo m = true) (ha : a < lo) : memGet m a = unlisted := by
  induction m generalizing lo with
  | nil => rfl
  | cons c r ih =>
    simp only [memFrom, Bool.and_eq_true, decide_eq_true_eq] at h
    simp only [memGet]
    rw [if_neg (by omega)]
    exact ih h.2 (by omega)

theorem memGet_memSet_from {m : List Host.Cell} {lo : Nat} (h : memFrom lo m = true) (a b : Nat) (v : Byte) :
    memGet (memSet m a v) b = if b = a then v else memGet m b := by
  induction m generalizing lo with
  | nil =>
    by_cases hv : v = unlisted <;> by_cases hb : b = a
    · simp [memSet, memGet, hv]
    · simp [memSet, memGet, hv]
    · simp [memSet, memGet, hv, hb]
    · simp [memSet, memGet, hv, hb, Ne.symm hb]
  | cons c r ih =>
    simp only [memFrom, Bool.and_eq_true, decide_eq_true_eq] at h
    have hr (x : Nat) (hx : x ≤ c.1) : memGet r x = unlisted := memGet_below h.2 (by omega)
    have ih := ih h.2
    simp only [memSet]
    split
    · simp only [memGet, ih]
      by_cases hb : b = a
      · rw [if_pos hb, if_neg (by omega), if_pos hb]
      · rw [if_neg hb, if_neg hb]
    · split
      · rename_i h1 h2
        by_cases hv : v = unlisted
        · rw [if_pos hv]
          by_cases hb : b = a
          · rw [if_pos hb, hv]; exact hr b (by omega)
          · rw [if_neg hb]; simp only [memGet]; rw [if_neg (by omega)]
        · rw [if_neg hv]; simp only [memGet]
          by_cases hb : b = a
          · rw [if_pos hb.symm, if_pos hb]
          · rw [if_neg (Ne.symm hb), if_neg hb, if_neg (by omega)]
      · rename_i h1 h2
        by_cases hv : v = unlisted
        · rw [if_pos hv]
          by_cases hb : b = a
          · rw [if_pos hb, hv]; simp only [memGet]; rw [if_neg (by omega)]; exact hr b (by omega)
          · rw [if_neg hb]
        · rw [if_neg hv]; simp only [memGet]
          by_cases hb : b = a
          · rw [if_pos hb.symm, if_pos hb]
          · rw [if_neg (Ne.symm hb), if_neg hb]

/-- A byte reads as written, and every other byte as before. -/
theorem memGet_memSet {m : List Host.Cell} (h : Memory.wf m = true) (a b : Nat) (v : Byte) :
    memGet (memSet m a v) b = if b = a then v else memGet m b := memGet_memSet_from h a b v

/-- After a write of a run of bytes, its bytes read as written, and every other byte as before. -/
theorem memGet_memWrite {m : List Host.Cell} (h : Memory.wf m = true) (a : Nat) (l : List Byte) (b : Nat) :
    memGet (memWrite m a l) b = if a ≤ b ∧ b < a + l.length then l.getD (b - a) 0 else memGet m b := by
  induction l generalizing m a with
  | nil => simp [memWrite]
  | cons v r ih =>
    rw [memWrite, ih (wf_memSet h a v), memGet_memSet h]
    by_cases h1 : b = a
    · subst h1; simp
    · by_cases h2 : a + 1 ≤ b ∧ b < a + 1 + r.length
      · rw [if_pos h2, if_pos ⟨by omega, by simp; omega⟩, show b - a = (b - (a + 1)) + 1 by omega]; rfl
      · rw [if_neg h2, if_neg h1, if_neg (by simp; omega)]

/-- A run of bytes reads back as written. -/
theorem memRead_memWrite {m : List Host.Cell} (h : Memory.wf m = true) (a : Nat) (l : List Byte) :
    memRead (memWrite m a l) a l.length = l := by
  apply List.ext_getElem
  · simp [memRead]
  · intro i h1 h2
    simp only [memRead, List.getElem_map, List.getElem_range]
    rw [memGet_memWrite h, if_pos ⟨by omega, by omega⟩]
    simp [h2]

theorem memFrom_ext {m n : List Host.Cell} {lo : Nat} (hm : memFrom lo m = true) (hn : memFrom lo n = true)
    (h : ∀ a, memGet m a = memGet n a) : m = n := by
  induction m generalizing n lo with
  | nil =>
    cases n with
    | nil => rfl
    | cons c r =>
      simp only [memFrom, Bool.and_eq_true, decide_eq_true_eq] at hn
      have := h c.1
      simp [memGet] at this
      exact absurd this.symm hn.1.2
  | cons c r ih =>
    simp only [memFrom, Bool.and_eq_true, decide_eq_true_eq] at hm
    cases n with
    | nil =>
      have := h c.1
      simp [memGet] at this
      exact absurd this hm.1.2
    | cons d q =>
      simp only [memFrom, Bool.and_eq_true, decide_eq_true_eq] at hn
      have hcd : c.1 = d.1 := by
        rcases Nat.lt_trichotomy c.1 d.1 with hl | he | hl
        · have := h c.1
          simp only [memGet, if_true] at this
          rw [if_neg (by omega), memGet_below hn.2 (by omega)] at this
          exact absurd this hm.1.2
        · exact he
        · have := h d.1
          simp only [memGet, if_true] at this
          rw [if_neg (by omega), memGet_below hm.2 (by omega)] at this
          exact absurd this.symm hn.1.2
      have hv : c.2 = d.2 := by have := h c.1; simpa [memGet, hcd] using this
      have : r = q := by
        apply ih hm.2 (by rw [hcd]; exact hn.2)
        intro a
        by_cases ha : c.1 = a
        · rw [memGet_below hm.2 (by omega), memGet_below hn.2 (by omega)]
        · have := h a
          simp only [memGet] at this
          rwa [if_neg ha, if_neg (by omega)] at this
      rw [this, Prod.ext hcd hv]

/-- Memories in canonical form that read alike are equal data. -/
theorem memory_ext {m n : List Host.Cell} (hm : Memory.wf m = true) (hn : Memory.wf n = true) (h : ∀ a, memGet m a = memGet n a) :
    m = n := memFrom_ext hm hn h

end Sys2Proof.Laws
end

