-- ==== Sys2Proof/Laws/Tables.lean ====
section
/-! SUPPORT. Tables by key: what an entry reads as after a change. -/

namespace Sys2Proof.Laws

open Sys2Proof Sys2Proof.Machine

variable {α β : Type} [DecidableEq α]

@[simp] theorem get_put_self (l : List (α × β)) (k : α) (v : β) : Machine.get (put l k v) k = some v := by
  induction l with
  | nil => simp [put, Machine.get]
  | cons e r ih => simp only [put]; split <;> simp_all [Machine.get]

theorem get_put_ne (l : List (α × β)) {j k : α} (v : β) (h : j ≠ k) : Machine.get (put l k v) j = Machine.get l j := by
  induction l with
  | nil => simp [put, Machine.get, Ne.symm h]
  | cons e r ih =>
    simp only [put]
    split
    · subst_vars; simp [Machine.get, h.symm]
    · simp only [Machine.get]; split <;> simp_all

theorem get_put (l : List (α × β)) (j k : α) (v : β) : Machine.get (put l k v) j = if j = k then some v else Machine.get l j := by
  split
  · subst_vars; simp
  · exact get_put_ne l v ‹_›

/-- An entry found stands in the table. -/
theorem get_mem {l : List (α × β)} {k : α} {v : β} (h : Machine.get l k = some v) : (k, v) ∈ l := by
  induction l with
  | nil => simp [Machine.get] at h
  | cons e r ih =>
    obtain ⟨j, w⟩ := e
    unfold Machine.get at h
    split at h
    · simp_all
    · exact List.mem_cons_of_mem _ (ih h)
theorem put_put (l : List (α × β)) (k : α) (v w : β) : put (put l k v) k w = put l k w := by
  induction l with
  | nil => simp [put]
  | cons e r ih => by_cases h : e.1 = k <;> simp [put, h, ih]

theorem put_get (l : List (α × β)) (k : α) (v : β) (h : Machine.get l k = some v) : put l k v = l := by
  induction l with
  | nil => simp [Machine.get] at h
  | cons e r ih =>
    obtain ⟨j, w⟩ := e
    by_cases hk : j = k <;> simp_all [put, Machine.get]

@[simp] theorem get_del_self (l : List (α × β)) (k : α) : Machine.get (del l k) k = none := by
  induction l with
  | nil => rfl
  | cons e r ih => by_cases h : e.1 = k <;> simp_all [del, Machine.get]

theorem get_del_ne (l : List (α × β)) {j k : α} (h : j ≠ k) : Machine.get (del l k) j = Machine.get l j := by
  induction l with
  | nil => rfl
  | cons e r ih => by_cases hk : e.1 = k <;> by_cases hj : e.1 = j <;> simp_all [del, Machine.get]

end Sys2Proof.Laws
end

