-- ==== Sys2Proof/Laws/State.lean ====
section
/-! SUPPORT. The state: one lemma per field for each update, and what an accessor reads after an update. -/

namespace Sys2Proof.Laws

open Sys2Proof Sys2Proof.Machine

/-! ### setCore -/

@[simp] theorem setCore_turn (s : State) (c : Nat) (k : Core) : (s.setCore c k).turn = s.turn := rfl
@[simp] theorem setCore_cur (s : State) (c : Nat) (k : Core) : (s.setCore c k).cur = s.cur := rfl
@[simp] theorem setCore_free (s : State) (c : Nat) (k : Core) : (s.setCore c k).free = s.free := rfl
@[simp] theorem setCore_serial (s : State) (c : Nat) (k : Core) : (s.setCore c k).serial = s.serial := rfl
@[simp] theorem setCore_dies (s : State) (c : Nat) (k : Core) : (s.setCore c k).dies = s.dies := rfl
@[simp] theorem setCore_mem (s : State) (c : Nat) (k : Core) : (s.setCore c k).mem = s.mem := rfl
@[simp] theorem setCore_lineKeys (s : State) (c : Nat) (k : Core) : (s.setCore c k).lineKeys = s.lineKeys := rfl
@[simp] theorem setCore_badLines (s : State) (c : Nat) (k : Core) : (s.setCore c k).badLines = s.badLines := rfl
@[simp] theorem setCore_image (s : State) (c : Nat) (k : Core) : (s.setCore c k).image = s.image := rfl
@[simp] theorem setCore_firmware (s : State) (c : Nat) (k : Core) : (s.setCore c k).firmware = s.firmware := rfl
@[simp] theorem setCore_pubs (s : State) (c : Nat) (k : Core) : (s.setCore c k).pubs = s.pubs := rfl
@[simp] theorem setCore_writes (s : State) (c : Nat) (k : Core) : (s.setCore c k).writes = s.writes := rfl
@[simp] theorem setCore_lineClocks (s : State) (c : Nat) (k : Core) : (s.setCore c k).lineClocks = s.lineClocks := rfl
@[simp] theorem setCore_solo (s : State) (c : Nat) (k : Core) : (s.setCore c k).solo = s.solo := rfl
@[simp] theorem setCore_l2old (s : State) (c : Nat) (k : Core) : (s.setCore c k).l2old = s.l2old := rfl
@[simp] theorem setCore_sectors (s : State) (c : Nat) (k : Core) : (s.setCore c k).sectors = s.sectors := rfl
@[simp] theorem setCore_ctrl (s : State) (c : Nat) (k : Core) : (s.setCore c k).ctrl = s.ctrl := rfl
@[simp] theorem setCore_logs (s : State) (c : Nat) (k : Core) : (s.setCore c k).logs = s.logs := rfl
@[simp] theorem setCore_meters (s : State) (c : Nat) (k : Core) : (s.setCore c k).meters = s.meters := rfl
@[simp] theorem setCore_parts (s : State) (c : Nat) (k : Core) : (s.setCore c k).parts = s.parts := rfl
@[simp] theorem setCore_keys (s : State) (c : Nat) (k : Core) : (s.setCore c k).keys = s.keys := rfl
@[simp] theorem setCore_vfmap (s : State) (c : Nat) (k : Core) : (s.setCore c k).vfmap = s.vfmap := rfl
@[simp] theorem setCore_attach (s : State) (c : Nat) (k : Core) : (s.setCore c k).attach = s.attach := rfl
@[simp] theorem setCore_comms (s : State) (c : Nat) (k : Core) : (s.setCore c k).comms = s.comms := rfl
@[simp] theorem setCore_collSeq (s : State) (c : Nat) (k : Core) : (s.setCore c k).collSeq = s.collSeq := rfl
@[simp] theorem setCore_queues (s : State) (c : Nat) (k : Core) : (s.setCore c k).queues = s.queues := rfl
@[simp] theorem setCore_launches (s : State) (c : Nat) (k : Core) : (s.setCore c k).launches = s.launches := rfl
@[simp] theorem setCore_engQueues (s : State) (c : Nat) (k : Core) : (s.setCore c k).engQueues = s.engQueues := rfl
@[simp] theorem setCore_engOps (s : State) (c : Nat) (k : Core) : (s.setCore c k).engOps = s.engOps := rfl
@[simp] theorem setCore_loaders (s : State) (c : Nat) (k : Core) : (s.setCore c k).loaders = s.loaders := rfl
@[simp] theorem setCore_graphs (s : State) (c : Nat) (k : Core) : (s.setCore c k).graphs = s.graphs := rfl
@[simp] theorem setCore_parked (s : State) (c : Nat) (k : Core) : (s.setCore c k).parked = s.parked := rfl
@[simp] theorem setCore_lifted (s : State) (c : Nat) (k : Core) : (s.setCore c k).lifted = s.lifted := rfl
@[simp] theorem setCore_host (s : State) (c : Nat) (k : Core) : (s.setCore c k).host = s.host := rfl
@[simp] theorem setCore_limiting (s : State) (c : Nat) (k : Core) : (s.setCore c k).limiting = s.limiting := rfl

/-! ### setDie -/

@[simp] theorem setDie_turn (s : State) (d : Nat) (x : Die) : (s.setDie d x).turn = s.turn := rfl
@[simp] theorem setDie_cur (s : State) (d : Nat) (x : Die) : (s.setDie d x).cur = s.cur := rfl
@[simp] theorem setDie_free (s : State) (d : Nat) (x : Die) : (s.setDie d x).free = s.free := rfl
@[simp] theorem setDie_serial (s : State) (d : Nat) (x : Die) : (s.setDie d x).serial = s.serial := rfl
@[simp] theorem setDie_cores (s : State) (d : Nat) (x : Die) : (s.setDie d x).cores = s.cores := rfl
@[simp] theorem setDie_mem (s : State) (d : Nat) (x : Die) : (s.setDie d x).mem = s.mem := rfl
@[simp] theorem setDie_lineKeys (s : State) (d : Nat) (x : Die) : (s.setDie d x).lineKeys = s.lineKeys := rfl
@[simp] theorem setDie_badLines (s : State) (d : Nat) (x : Die) : (s.setDie d x).badLines = s.badLines := rfl
@[simp] theorem setDie_image (s : State) (d : Nat) (x : Die) : (s.setDie d x).image = s.image := rfl
@[simp] theorem setDie_firmware (s : State) (d : Nat) (x : Die) : (s.setDie d x).firmware = s.firmware := rfl
@[simp] theorem setDie_pubs (s : State) (d : Nat) (x : Die) : (s.setDie d x).pubs = s.pubs := rfl
@[simp] theorem setDie_writes (s : State) (d : Nat) (x : Die) : (s.setDie d x).writes = s.writes := rfl
@[simp] theorem setDie_lineClocks (s : State) (d : Nat) (x : Die) : (s.setDie d x).lineClocks = s.lineClocks := rfl
@[simp] theorem setDie_solo (s : State) (d : Nat) (x : Die) : (s.setDie d x).solo = s.solo := rfl
@[simp] theorem setDie_l2old (s : State) (d : Nat) (x : Die) : (s.setDie d x).l2old = s.l2old := rfl
@[simp] theorem setDie_sectors (s : State) (d : Nat) (x : Die) : (s.setDie d x).sectors = s.sectors := rfl
@[simp] theorem setDie_ctrl (s : State) (d : Nat) (x : Die) : (s.setDie d x).ctrl = s.ctrl := rfl
@[simp] theorem setDie_logs (s : State) (d : Nat) (x : Die) : (s.setDie d x).logs = s.logs := rfl
@[simp] theorem setDie_meters (s : State) (d : Nat) (x : Die) : (s.setDie d x).meters = s.meters := rfl
@[simp] theorem setDie_parts (s : State) (d : Nat) (x : Die) : (s.setDie d x).parts = s.parts := rfl
@[simp] theorem setDie_keys (s : State) (d : Nat) (x : Die) : (s.setDie d x).keys = s.keys := rfl
@[simp] theorem setDie_vfmap (s : State) (d : Nat) (x : Die) : (s.setDie d x).vfmap = s.vfmap := rfl
@[simp] theorem setDie_attach (s : State) (d : Nat) (x : Die) : (s.setDie d x).attach = s.attach := rfl
@[simp] theorem setDie_comms (s : State) (d : Nat) (x : Die) : (s.setDie d x).comms = s.comms := rfl
@[simp] theorem setDie_collSeq (s : State) (d : Nat) (x : Die) : (s.setDie d x).collSeq = s.collSeq := rfl
@[simp] theorem setDie_queues (s : State) (d : Nat) (x : Die) : (s.setDie d x).queues = s.queues := rfl
@[simp] theorem setDie_launches (s : State) (d : Nat) (x : Die) : (s.setDie d x).launches = s.launches := rfl
@[simp] theorem setDie_engQueues (s : State) (d : Nat) (x : Die) : (s.setDie d x).engQueues = s.engQueues := rfl
@[simp] theorem setDie_engOps (s : State) (d : Nat) (x : Die) : (s.setDie d x).engOps = s.engOps := rfl
@[simp] theorem setDie_loaders (s : State) (d : Nat) (x : Die) : (s.setDie d x).loaders = s.loaders := rfl
@[simp] theorem setDie_graphs (s : State) (d : Nat) (x : Die) : (s.setDie d x).graphs = s.graphs := rfl
@[simp] theorem setDie_parked (s : State) (d : Nat) (x : Die) : (s.setDie d x).parked = s.parked := rfl
@[simp] theorem setDie_lifted (s : State) (d : Nat) (x : Die) : (s.setDie d x).lifted = s.lifted := rfl
@[simp] theorem setDie_host (s : State) (d : Nat) (x : Die) : (s.setDie d x).host = s.host := rfl
@[simp] theorem setDie_limiting (s : State) (d : Nat) (x : Die) : (s.setDie d x).limiting = s.limiting := rfl

/-! ### setPart -/

@[simp] theorem setPart_turn (s : State) (p : Nat) (x : Part) : (s.setPart p x).turn = s.turn := rfl
@[simp] theorem setPart_cur (s : State) (p : Nat) (x : Part) : (s.setPart p x).cur = s.cur := rfl
@[simp] theorem setPart_free (s : State) (p : Nat) (x : Part) : (s.setPart p x).free = s.free := rfl
@[simp] theorem setPart_serial (s : State) (p : Nat) (x : Part) : (s.setPart p x).serial = s.serial := rfl
@[simp] theorem setPart_cores (s : State) (p : Nat) (x : Part) : (s.setPart p x).cores = s.cores := rfl
@[simp] theorem setPart_dies (s : State) (p : Nat) (x : Part) : (s.setPart p x).dies = s.dies := rfl
@[simp] theorem setPart_mem (s : State) (p : Nat) (x : Part) : (s.setPart p x).mem = s.mem := rfl
@[simp] theorem setPart_lineKeys (s : State) (p : Nat) (x : Part) : (s.setPart p x).lineKeys = s.lineKeys := rfl
@[simp] theorem setPart_badLines (s : State) (p : Nat) (x : Part) : (s.setPart p x).badLines = s.badLines := rfl
@[simp] theorem setPart_image (s : State) (p : Nat) (x : Part) : (s.setPart p x).image = s.image := rfl
@[simp] theorem setPart_firmware (s : State) (p : Nat) (x : Part) : (s.setPart p x).firmware = s.firmware := rfl
@[simp] theorem setPart_pubs (s : State) (p : Nat) (x : Part) : (s.setPart p x).pubs = s.pubs := rfl
@[simp] theorem setPart_writes (s : State) (p : Nat) (x : Part) : (s.setPart p x).writes = s.writes := rfl
@[simp] theorem setPart_lineClocks (s : State) (p : Nat) (x : Part) : (s.setPart p x).lineClocks = s.lineClocks := rfl
@[simp] theorem setPart_solo (s : State) (p : Nat) (x : Part) : (s.setPart p x).solo = s.solo := rfl
@[simp] theorem setPart_l2old (s : State) (p : Nat) (x : Part) : (s.setPart p x).l2old = s.l2old := rfl
@[simp] theorem setPart_sectors (s : State) (p : Nat) (x : Part) : (s.setPart p x).sectors = s.sectors := rfl
@[simp] theorem setPart_ctrl (s : State) (p : Nat) (x : Part) : (s.setPart p x).ctrl = s.ctrl := rfl
@[simp] theorem setPart_logs (s : State) (p : Nat) (x : Part) : (s.setPart p x).logs = s.logs := rfl
@[simp] theorem setPart_meters (s : State) (p : Nat) (x : Part) : (s.setPart p x).meters = s.meters := rfl
@[simp] theorem setPart_keys (s : State) (p : Nat) (x : Part) : (s.setPart p x).keys = s.keys := rfl
@[simp] theorem setPart_vfmap (s : State) (p : Nat) (x : Part) : (s.setPart p x).vfmap = s.vfmap := rfl
@[simp] theorem setPart_attach (s : State) (p : Nat) (x : Part) : (s.setPart p x).attach = s.attach := rfl
@[simp] theorem setPart_comms (s : State) (p : Nat) (x : Part) : (s.setPart p x).comms = s.comms := rfl
@[simp] theorem setPart_collSeq (s : State) (p : Nat) (x : Part) : (s.setPart p x).collSeq = s.collSeq := rfl
@[simp] theorem setPart_queues (s : State) (p : Nat) (x : Part) : (s.setPart p x).queues = s.queues := rfl
@[simp] theorem setPart_launches (s : State) (p : Nat) (x : Part) : (s.setPart p x).launches = s.launches := rfl
@[simp] theorem setPart_engQueues (s : State) (p : Nat) (x : Part) : (s.setPart p x).engQueues = s.engQueues := rfl
@[simp] theorem setPart_engOps (s : State) (p : Nat) (x : Part) : (s.setPart p x).engOps = s.engOps := rfl
@[simp] theorem setPart_loaders (s : State) (p : Nat) (x : Part) : (s.setPart p x).loaders = s.loaders := rfl
@[simp] theorem setPart_graphs (s : State) (p : Nat) (x : Part) : (s.setPart p x).graphs = s.graphs := rfl
@[simp] theorem setPart_parked (s : State) (p : Nat) (x : Part) : (s.setPart p x).parked = s.parked := rfl
@[simp] theorem setPart_lifted (s : State) (p : Nat) (x : Part) : (s.setPart p x).lifted = s.lifted := rfl
@[simp] theorem setPart_host (s : State) (p : Nat) (x : Part) : (s.setPart p x).host = s.host := rfl
@[simp] theorem setPart_limiting (s : State) (p : Nat) (x : Part) : (s.setPart p x).limiting = s.limiting := rfl

/-! ### tick -/

@[simp] theorem tick_turn (s : State) : (s.tick).turn = s.turn := rfl
@[simp] theorem tick_cur (s : State) : (s.tick).cur = s.cur := rfl
@[simp] theorem tick_serial (s : State) : (s.tick).serial = s.serial := rfl
@[simp] theorem tick_cores (s : State) : (s.tick).cores = s.cores := rfl
@[simp] theorem tick_dies (s : State) : (s.tick).dies = s.dies := rfl
@[simp] theorem tick_mem (s : State) : (s.tick).mem = s.mem := rfl
@[simp] theorem tick_lineKeys (s : State) : (s.tick).lineKeys = s.lineKeys := rfl
@[simp] theorem tick_badLines (s : State) : (s.tick).badLines = s.badLines := rfl
@[simp] theorem tick_image (s : State) : (s.tick).image = s.image := rfl
@[simp] theorem tick_firmware (s : State) : (s.tick).firmware = s.firmware := rfl
@[simp] theorem tick_pubs (s : State) : (s.tick).pubs = s.pubs := rfl
@[simp] theorem tick_writes (s : State) : (s.tick).writes = s.writes := rfl
@[simp] theorem tick_lineClocks (s : State) : (s.tick).lineClocks = s.lineClocks := rfl
@[simp] theorem tick_solo (s : State) : (s.tick).solo = s.solo := rfl
@[simp] theorem tick_l2old (s : State) : (s.tick).l2old = s.l2old := rfl
@[simp] theorem tick_sectors (s : State) : (s.tick).sectors = s.sectors := rfl
@[simp] theorem tick_ctrl (s : State) : (s.tick).ctrl = s.ctrl := rfl
@[simp] theorem tick_logs (s : State) : (s.tick).logs = s.logs := rfl
@[simp] theorem tick_meters (s : State) : (s.tick).meters = s.meters := rfl
@[simp] theorem tick_parts (s : State) : (s.tick).parts = s.parts := rfl
@[simp] theorem tick_keys (s : State) : (s.tick).keys = s.keys := rfl
@[simp] theorem tick_vfmap (s : State) : (s.tick).vfmap = s.vfmap := rfl
@[simp] theorem tick_attach (s : State) : (s.tick).attach = s.attach := rfl
@[simp] theorem tick_comms (s : State) : (s.tick).comms = s.comms := rfl
@[simp] theorem tick_collSeq (s : State) : (s.tick).collSeq = s.collSeq := rfl
@[simp] theorem tick_queues (s : State) : (s.tick).queues = s.queues := rfl
@[simp] theorem tick_launches (s : State) : (s.tick).launches = s.launches := rfl
@[simp] theorem tick_engQueues (s : State) : (s.tick).engQueues = s.engQueues := rfl
@[simp] theorem tick_engOps (s : State) : (s.tick).engOps = s.engOps := rfl
@[simp] theorem tick_loaders (s : State) : (s.tick).loaders = s.loaders := rfl
@[simp] theorem tick_graphs (s : State) : (s.tick).graphs = s.graphs := rfl
@[simp] theorem tick_parked (s : State) : (s.tick).parked = s.parked := rfl
@[simp] theorem tick_lifted (s : State) : (s.tick).lifted = s.lifted := rfl
@[simp] theorem tick_host (s : State) : (s.tick).host = s.host := rfl
@[simp] theorem tick_limiting (s : State) : (s.tick).limiting = s.limiting := rfl

@[simp] theorem tick_free (s : State) : s.tick.free = s.free + 1 := rfl

/-! ### fresh -/

@[simp] theorem fresh_turn (s : State) : (s.fresh).turn = s.turn := rfl
@[simp] theorem fresh_cur (s : State) : (s.fresh).cur = s.cur := rfl
@[simp] theorem fresh_free (s : State) : (s.fresh).free = s.free := rfl
@[simp] theorem fresh_cores (s : State) : (s.fresh).cores = s.cores := rfl
@[simp] theorem fresh_dies (s : State) : (s.fresh).dies = s.dies := rfl
@[simp] theorem fresh_mem (s : State) : (s.fresh).mem = s.mem := rfl
@[simp] theorem fresh_lineKeys (s : State) : (s.fresh).lineKeys = s.lineKeys := rfl
@[simp] theorem fresh_badLines (s : State) : (s.fresh).badLines = s.badLines := rfl
@[simp] theorem fresh_image (s : State) : (s.fresh).image = s.image := rfl
@[simp] theorem fresh_firmware (s : State) : (s.fresh).firmware = s.firmware := rfl
@[simp] theorem fresh_pubs (s : State) : (s.fresh).pubs = s.pubs := rfl
@[simp] theorem fresh_writes (s : State) : (s.fresh).writes = s.writes := rfl
@[simp] theorem fresh_lineClocks (s : State) : (s.fresh).lineClocks = s.lineClocks := rfl
@[simp] theorem fresh_solo (s : State) : (s.fresh).solo = s.solo := rfl
@[simp] theorem fresh_l2old (s : State) : (s.fresh).l2old = s.l2old := rfl
@[simp] theorem fresh_sectors (s : State) : (s.fresh).sectors = s.sectors := rfl
@[simp] theorem fresh_ctrl (s : State) : (s.fresh).ctrl = s.ctrl := rfl
@[simp] theorem fresh_logs (s : State) : (s.fresh).logs = s.logs := rfl
@[simp] theorem fresh_meters (s : State) : (s.fresh).meters = s.meters := rfl
@[simp] theorem fresh_parts (s : State) : (s.fresh).parts = s.parts := rfl
@[simp] theorem fresh_keys (s : State) : (s.fresh).keys = s.keys := rfl
@[simp] theorem fresh_vfmap (s : State) : (s.fresh).vfmap = s.vfmap := rfl
@[simp] theorem fresh_attach (s : State) : (s.fresh).attach = s.attach := rfl
@[simp] theorem fresh_comms (s : State) : (s.fresh).comms = s.comms := rfl
@[simp] theorem fresh_collSeq (s : State) : (s.fresh).collSeq = s.collSeq := rfl
@[simp] theorem fresh_queues (s : State) : (s.fresh).queues = s.queues := rfl
@[simp] theorem fresh_launches (s : State) : (s.fresh).launches = s.launches := rfl
@[simp] theorem fresh_engQueues (s : State) : (s.fresh).engQueues = s.engQueues := rfl
@[simp] theorem fresh_engOps (s : State) : (s.fresh).engOps = s.engOps := rfl
@[simp] theorem fresh_loaders (s : State) : (s.fresh).loaders = s.loaders := rfl
@[simp] theorem fresh_graphs (s : State) : (s.fresh).graphs = s.graphs := rfl
@[simp] theorem fresh_parked (s : State) : (s.fresh).parked = s.parked := rfl
@[simp] theorem fresh_lifted (s : State) : (s.fresh).lifted = s.lifted := rfl
@[simp] theorem fresh_host (s : State) : (s.fresh).host = s.host := rfl
@[simp] theorem fresh_limiting (s : State) : (s.fresh).limiting = s.limiting := rfl

@[simp] theorem fresh_serial (s : State) : s.fresh.serial = s.serial + 1 := rfl

/-! ### setWarp and putWarp -/

@[simp] theorem setWarp_turn (s : State) (c w : Nat) (x : Warp) : (s.setWarp c w x).turn = s.turn := by
  unfold State.setWarp; split <;> rfl
@[simp] theorem putWarp_turn (s : State) (c : Cur) (x : Warp) : (s.putWarp c x).turn = s.turn := setWarp_turn s _ _ x
@[simp] theorem setWarp_cur (s : State) (c w : Nat) (x : Warp) : (s.setWarp c w x).cur = s.cur := by
  unfold State.setWarp; split <;> rfl
@[simp] theorem putWarp_cur (s : State) (c : Cur) (x : Warp) : (s.putWarp c x).cur = s.cur := setWarp_cur s _ _ x
@[simp] theorem setWarp_free (s : State) (c w : Nat) (x : Warp) : (s.setWarp c w x).free = s.free := by
  unfold State.setWarp; split <;> rfl
@[simp] theorem putWarp_free (s : State) (c : Cur) (x : Warp) : (s.putWarp c x).free = s.free := setWarp_free s _ _ x
@[simp] theorem setWarp_serial (s : State) (c w : Nat) (x : Warp) : (s.setWarp c w x).serial = s.serial := by
  unfold State.setWarp; split <;> rfl
@[simp] theorem putWarp_serial (s : State) (c : Cur) (x : Warp) : (s.putWarp c x).serial = s.serial := setWarp_serial s _ _ x
@[simp] theorem setWarp_dies (s : State) (c w : Nat) (x : Warp) : (s.setWarp c w x).dies = s.dies := by
  unfold State.setWarp; split <;> rfl
@[simp] theorem putWarp_dies (s : State) (c : Cur) (x : Warp) : (s.putWarp c x).dies = s.dies := setWarp_dies s _ _ x
@[simp] theorem setWarp_mem (s : State) (c w : Nat) (x : Warp) : (s.setWarp c w x).mem = s.mem := by
  unfold State.setWarp; split <;> rfl
@[simp] theorem putWarp_mem (s : State) (c : Cur) (x : Warp) : (s.putWarp c x).mem = s.mem := setWarp_mem s _ _ x
@[simp] theorem setWarp_lineKeys (s : State) (c w : Nat) (x : Warp) : (s.setWarp c w x).lineKeys = s.lineKeys := by
  unfold State.setWarp; split <;> rfl
@[simp] theorem putWarp_lineKeys (s : State) (c : Cur) (x : Warp) : (s.putWarp c x).lineKeys = s.lineKeys := setWarp_lineKeys s _ _ x
@[simp] theorem setWarp_badLines (s : State) (c w : Nat) (x : Warp) : (s.setWarp c w x).badLines = s.badLines := by
  unfold State.setWarp; split <;> rfl
@[simp] theorem putWarp_badLines (s : State) (c : Cur) (x : Warp) : (s.putWarp c x).badLines = s.badLines := setWarp_badLines s _ _ x
@[simp] theorem setWarp_image (s : State) (c w : Nat) (x : Warp) : (s.setWarp c w x).image = s.image := by
  unfold State.setWarp; split <;> rfl
@[simp] theorem putWarp_image (s : State) (c : Cur) (x : Warp) : (s.putWarp c x).image = s.image := setWarp_image s _ _ x
@[simp] theorem setWarp_firmware (s : State) (c w : Nat) (x : Warp) : (s.setWarp c w x).firmware = s.firmware := by
  unfold State.setWarp; split <;> rfl
@[simp] theorem putWarp_firmware (s : State) (c : Cur) (x : Warp) : (s.putWarp c x).firmware = s.firmware := setWarp_firmware s _ _ x
@[simp] theorem setWarp_pubs (s : State) (c w : Nat) (x : Warp) : (s.setWarp c w x).pubs = s.pubs := by
  unfold State.setWarp; split <;> rfl
@[simp] theorem putWarp_pubs (s : State) (c : Cur) (x : Warp) : (s.putWarp c x).pubs = s.pubs := setWarp_pubs s _ _ x
@[simp] theorem setWarp_writes (s : State) (c w : Nat) (x : Warp) : (s.setWarp c w x).writes = s.writes := by
  unfold State.setWarp; split <;> rfl
@[simp] theorem putWarp_writes (s : State) (c : Cur) (x : Warp) : (s.putWarp c x).writes = s.writes := setWarp_writes s _ _ x
@[simp] theorem setWarp_lineClocks (s : State) (c w : Nat) (x : Warp) : (s.setWarp c w x).lineClocks = s.lineClocks := by
  unfold State.setWarp; split <;> rfl
@[simp] theorem setWarp_solo (s : State) (c w : Nat) (x : Warp) : (s.setWarp c w x).solo = s.solo := by
  unfold State.setWarp; split <;> rfl
@[simp] theorem putWarp_lineClocks (s : State) (c : Cur) (x : Warp) : (s.putWarp c x).lineClocks = s.lineClocks := setWarp_lineClocks s _ _ x
@[simp] theorem putWarp_solo (s : State) (c : Cur) (x : Warp) : (s.putWarp c x).solo = s.solo := setWarp_solo s _ _ x
@[simp] theorem setWarp_l2old (s : State) (c w : Nat) (x : Warp) : (s.setWarp c w x).l2old = s.l2old := by
  unfold State.setWarp; split <;> rfl
@[simp] theorem putWarp_l2old (s : State) (c : Cur) (x : Warp) : (s.putWarp c x).l2old = s.l2old := setWarp_l2old s _ _ x
@[simp] theorem setWarp_sectors (s : State) (c w : Nat) (x : Warp) : (s.setWarp c w x).sectors = s.sectors := by
  unfold State.setWarp; split <;> rfl
@[simp] theorem putWarp_sectors (s : State) (c : Cur) (x : Warp) : (s.putWarp c x).sectors = s.sectors := setWarp_sectors s _ _ x
@[simp] theorem setWarp_ctrl (s : State) (c w : Nat) (x : Warp) : (s.setWarp c w x).ctrl = s.ctrl := by
  unfold State.setWarp; split <;> rfl
@[simp] theorem putWarp_ctrl (s : State) (c : Cur) (x : Warp) : (s.putWarp c x).ctrl = s.ctrl := setWarp_ctrl s _ _ x
@[simp] theorem setWarp_logs (s : State) (c w : Nat) (x : Warp) : (s.setWarp c w x).logs = s.logs := by
  unfold State.setWarp; split <;> rfl
@[simp] theorem putWarp_logs (s : State) (c : Cur) (x : Warp) : (s.putWarp c x).logs = s.logs := setWarp_logs s _ _ x
@[simp] theorem setWarp_meters (s : State) (c w : Nat) (x : Warp) : (s.setWarp c w x).meters = s.meters := by
  unfold State.setWarp; split <;> rfl
@[simp] theorem putWarp_meters (s : State) (c : Cur) (x : Warp) : (s.putWarp c x).meters = s.meters := setWarp_meters s _ _ x
@[simp] theorem setWarp_parts (s : State) (c w : Nat) (x : Warp) : (s.setWarp c w x).parts = s.parts := by
  unfold State.setWarp; split <;> rfl
@[simp] theorem putWarp_parts (s : State) (c : Cur) (x : Warp) : (s.putWarp c x).parts = s.parts := setWarp_parts s _ _ x
@[simp] theorem setWarp_keys (s : State) (c w : Nat) (x : Warp) : (s.setWarp c w x).keys = s.keys := by
  unfold State.setWarp; split <;> rfl
@[simp] theorem putWarp_keys (s : State) (c : Cur) (x : Warp) : (s.putWarp c x).keys = s.keys := setWarp_keys s _ _ x
@[simp] theorem setWarp_vfmap (s : State) (c w : Nat) (x : Warp) : (s.setWarp c w x).vfmap = s.vfmap := by
  unfold State.setWarp; split <;> rfl
@[simp] theorem putWarp_vfmap (s : State) (c : Cur) (x : Warp) : (s.putWarp c x).vfmap = s.vfmap := setWarp_vfmap s _ _ x
@[simp] theorem setWarp_attach (s : State) (c w : Nat) (x : Warp) : (s.setWarp c w x).attach = s.attach := by
  unfold State.setWarp; split <;> rfl
@[simp] theorem putWarp_attach (s : State) (c : Cur) (x : Warp) : (s.putWarp c x).attach = s.attach := setWarp_attach s _ _ x
@[simp] theorem setWarp_comms (s : State) (c w : Nat) (x : Warp) : (s.setWarp c w x).comms = s.comms := by
  unfold State.setWarp; split <;> rfl
@[simp] theorem putWarp_comms (s : State) (c : Cur) (x : Warp) : (s.putWarp c x).comms = s.comms := setWarp_comms s _ _ x
@[simp] theorem setWarp_collSeq (s : State) (c w : Nat) (x : Warp) : (s.setWarp c w x).collSeq = s.collSeq := by
  unfold State.setWarp; split <;> rfl
@[simp] theorem putWarp_collSeq (s : State) (c : Cur) (x : Warp) : (s.putWarp c x).collSeq = s.collSeq := setWarp_collSeq s _ _ x
@[simp] theorem setWarp_queues (s : State) (c w : Nat) (x : Warp) : (s.setWarp c w x).queues = s.queues := by
  unfold State.setWarp; split <;> rfl
@[simp] theorem putWarp_queues (s : State) (c : Cur) (x : Warp) : (s.putWarp c x).queues = s.queues := setWarp_queues s _ _ x
@[simp] theorem setWarp_launches (s : State) (c w : Nat) (x : Warp) : (s.setWarp c w x).launches = s.launches := by
  unfold State.setWarp; split <;> rfl
@[simp] theorem putWarp_launches (s : State) (c : Cur) (x : Warp) : (s.putWarp c x).launches = s.launches := setWarp_launches s _ _ x
@[simp] theorem setWarp_engQueues (s : State) (c w : Nat) (x : Warp) : (s.setWarp c w x).engQueues = s.engQueues := by
  unfold State.setWarp; split <;> rfl
@[simp] theorem putWarp_engQueues (s : State) (c : Cur) (x : Warp) : (s.putWarp c x).engQueues = s.engQueues := setWarp_engQueues s _ _ x
@[simp] theorem setWarp_engOps (s : State) (c w : Nat) (x : Warp) : (s.setWarp c w x).engOps = s.engOps := by
  unfold State.setWarp; split <;> rfl
@[simp] theorem putWarp_engOps (s : State) (c : Cur) (x : Warp) : (s.putWarp c x).engOps = s.engOps := setWarp_engOps s _ _ x
@[simp] theorem setWarp_loaders (s : State) (c w : Nat) (x : Warp) : (s.setWarp c w x).loaders = s.loaders := by
  unfold State.setWarp; split <;> rfl
@[simp] theorem putWarp_loaders (s : State) (c : Cur) (x : Warp) : (s.putWarp c x).loaders = s.loaders := setWarp_loaders s _ _ x
@[simp] theorem setWarp_graphs (s : State) (c w : Nat) (x : Warp) : (s.setWarp c w x).graphs = s.graphs := by
  unfold State.setWarp; split <;> rfl
@[simp] theorem putWarp_graphs (s : State) (c : Cur) (x : Warp) : (s.putWarp c x).graphs = s.graphs := setWarp_graphs s _ _ x
@[simp] theorem setWarp_parked (s : State) (c w : Nat) (x : Warp) : (s.setWarp c w x).parked = s.parked := by
  unfold State.setWarp; split <;> rfl
@[simp] theorem putWarp_parked (s : State) (c : Cur) (x : Warp) : (s.putWarp c x).parked = s.parked := setWarp_parked s _ _ x
@[simp] theorem setWarp_lifted (s : State) (c w : Nat) (x : Warp) : (s.setWarp c w x).lifted = s.lifted := by
  unfold State.setWarp; split <;> rfl
@[simp] theorem putWarp_lifted (s : State) (c : Cur) (x : Warp) : (s.putWarp c x).lifted = s.lifted := setWarp_lifted s _ _ x
@[simp] theorem setWarp_host (s : State) (c w : Nat) (x : Warp) : (s.setWarp c w x).host = s.host := by
  unfold State.setWarp; split <;> rfl
@[simp] theorem putWarp_host (s : State) (c : Cur) (x : Warp) : (s.putWarp c x).host = s.host := setWarp_host s _ _ x
@[simp] theorem setWarp_limiting (s : State) (c w : Nat) (x : Warp) : (s.setWarp c w x).limiting = s.limiting := by
  unfold State.setWarp; split <;> rfl
@[simp] theorem putWarp_limiting (s : State) (c : Cur) (x : Warp) : (s.putWarp c x).limiting = s.limiting := setWarp_limiting s _ _ x

/-! ### Accessors -/

@[simp] theorem core_setCore_self (s : State) (c : Nat) (k : Core) : (s.setCore c k).core c = k := by
  simp [State.core, State.setCore]

theorem core_setCore_ne (s : State) {c d : Nat} (k : Core) (h : d ≠ c) : (s.setCore c k).core d = s.core d := by
  simp [State.core, State.setCore, get_put_ne _ _ h]

@[simp] theorem part_setPart_self (s : State) (p : Nat) (x : Part) : (s.setPart p x).part p = x := by
  simp [State.part, State.setPart]

theorem slot_setSlot_self (s : State) (c w : Nat) (t : Slot) : (s.setSlot c w t).slot c w = some t := by
  simp [State.slot, State.setSlot, Core.setSlot]

theorem slot_setSlot_ne (s : State) {c w d v : Nat} (t : Slot) (h : (d, v) ≠ (c, w)) : (s.setSlot c w t).slot d v = s.slot d v := by
  by_cases hd : d = c
  · subst hd
    have hv : v ≠ w := fun e => h (by rw [e])
    simp [State.slot, State.setSlot, Core.setSlot, get_put_ne _ _ hv]
  · simp [State.slot, State.setSlot, core_setCore_ne _ _ hd]

/-- A warp that is there reads as replaced. -/
theorem warp_setWarp_self {s : State} {c w : Nat} {y : Warp} (x : Warp) (h : s.warp c w = some y) :
    (s.setWarp c w x).warp c w = some x := by
  unfold State.setWarp
  cases ht : s.slot c w with
  | none => simp [State.warp, ht] at h
  | some t => simp [State.warp, slot_setSlot_self]

theorem warp_setWarp_ne {s : State} {c w d v : Nat} (x : Warp) (h : (d, v) ≠ (c, w)) : (s.setWarp c w x).warp d v = s.warp d v := by
  unfold State.setWarp
  split
  · simp [State.warp, slot_setSlot_ne _ _ h]
  · rfl

/-- Of two replacements of one warp the second stands. -/
theorem setWarp_setWarp (s : State) (c w : Nat) (x y : Warp) : (s.setWarp c w x).setWarp c w y = s.setWarp c w y := by
  unfold State.setWarp
  cases ht : s.slot c w with
  | none => simp [ht]
  | some t => simp [slot_setSlot_self]; simp [State.setSlot, State.setCore, State.core, Core.setSlot, put_put]

theorem putWarp_putWarp (s : State) (c : Cur) (x y : Warp) : (s.putWarp c x).putWarp c y = s.putWarp c y := setWarp_setWarp s _ _ x y

/-! ### storedBy -/

/-- What a warp's store adds to the state it has reached: the run of stores that stands, and the clock that its line carries. -/
theorem storedBy_eq (s t : State) (c w line : Nat) (wide : Bool) :
    ∃ a b, s.storedBy t c w line wide = { t with solo := a, lineClocks := b } := by
  simp only [State.storedBy]
  split
  · exact ⟨_, _, rfl⟩
  · split
    · exact ⟨t.solo, t.lineClocks, rfl⟩
    · exact ⟨t.solo, _, rfl⟩

@[simp] theorem storedBy_mem (s t : State) (c w line : Nat) (wide : Bool) : (s.storedBy t c w line wide).mem = t.mem := by
  obtain ⟨a, b, h⟩ := storedBy_eq s t c w line wide; rw [h]
@[simp] theorem storedBy_cores (s t : State) (c w line : Nat) (wide : Bool) : (s.storedBy t c w line wide).cores = t.cores := by
  obtain ⟨a, b, h⟩ := storedBy_eq s t c w line wide; rw [h]
@[simp] theorem storedBy_dies (s t : State) (c w line : Nat) (wide : Bool) : (s.storedBy t c w line wide).dies = t.dies := by
  obtain ⟨a, b, h⟩ := storedBy_eq s t c w line wide; rw [h]

end Sys2Proof.Laws
end

