-- ==== Sys2Proof/Laws/Words.lean ====
section
/-! SUPPORT. Lane and uniform words: a word reads its sources without a cause, and its result is written back. -/

open Sys2Proof Sys2Proof.Machine Sys2Proof.Claims
namespace Sys2Proof.Laws

theorem issue_at {i : Instr} {s : State} {x : Warp} {p : Split} (h : At s x p) (hs : isSwitching i = false)
    (body : State → Cur → Warp → Split → Except Trap State) :
    issue i s body = match body s s.cur x p with
      | .ok t => .next t
      | .error t => .next (s.take s.cur t (wordOf i)) := by
  have hc : s.clearFor s.cur i = s := by simp [State.clearFor, hs]
  simp only [issue, hc, h.warp, h.split, h.fits]; cases body s s.cur x p <;> rfl

theorem findSome?_none {α β} (l : List α) (f : α → Option β) (h : ∀ a ∈ l, f a = none) : l.findSome? f = none := by
  simpa using h

theorem find?_false {α} (l : List α) (f : α → Bool) (h : ∀ a ∈ l, f a = false) : l.find? f = none := by
  simpa using h

theorem maskOf_false (w : Nat) (f : Nat → Bool) (h : ∀ l < w, f l = false) : maskOf w f = 0 := by
  have : ∀ (l : List Nat) (a : Nat), (∀ i ∈ l, f i = false) → l.foldl (fun a l => if f l then a + 2 ^ l else a) a = a := by
    intro l
    induction l with
    | nil => simp
    | cons i r ih => intro a hi; simp_all
  rw [maskOf, this]
  · rfl
  · simpa using h

theorem readCause_lanes {x : Warp} {p : Split} {m : LaneMask} {codes : List Nat} (h : LanesReadable x p m codes) :
    x.readCause p (laneSources m codes) = none := by
  have h1 (res : Bool) : (laneSources m codes).findSome? (x.poisonOf p res) = none := by
    apply findSome?_none
    simp only [laneSources, List.mem_map]
    rintro _ ⟨c, hc, rfl⟩
    have hl := (h c hc).2
    have : lowestLane x.width (fun l => (if m.getLsbD l then
        (x.src p (.int 32) c l).poison.filter (fun c => (c == 0x381) == res) else none).isSome) = none := by
      apply find?_false
      intro l hl'
      split
      · rw [(hl l (by simpa using hl') ‹_›).2]; rfl
      · rfl
    simp only [Warp.poisonOf, Bool.false_eq_true, if_false, this]
  have h2 : (laneSources m codes).findSome? (staleOf p) = none := by
    apply findSome?_none
    simp only [laneSources, List.mem_map]
    rintro _ ⟨c, hc, rfl⟩
    have hl := (h c hc).1
    simp only [staleOf, Bool.false_eq_true, if_false, ite_eq_right_iff, reduceCtorEq, imp_false, Bool.not_eq_true]
    by_cases h1 : 48 ≤ c <;> by_cases h2 : c ≤ 51 <;> simp [h1, h2]
    simpa using hl h1 h2
  have h3 : (laneSources m codes).findSome? (x.pendingOf p) = none := by
    apply findSome?_none
    simp only [laneSources, List.mem_map]
    rintro _ ⟨c, hc, rfl⟩
    have hl := (h c hc).2
    have : maskOf x.width (fun l => m.getLsbD l && (x.src p (.int 32) c l).pend.any fun z => !x.withdrew z.op) = 0 := by
      apply maskOf_false
      intro l hl'
      cases hm : m.getLsbD l
      · rfl
      · simp [(hl l hl' hm).1]
    simp [Warp.pendingOf, this]
  simp [Warp.readCause, h1, h2, h3]

theorem readCause_uni {x : Warp} {p : Split} {g : Bool} {codes : List Nat} (h : UniReadable x p g codes) :
    x.readCause p (uniSources g codes) = none := by
  have h1 (res : Bool) : (uniSources g codes).findSome? (x.poisonOf p res) = none := by
    apply findSome?_none
    simp only [uniSources, List.mem_map]
    rintro _ ⟨c, hc, rfl⟩
    have hl := (h c hc).2
    cases g <;> simp_all [Warp.poisonOf]
  have h2 : (uniSources g codes).findSome? (staleOf p) = none := by
    apply findSome?_none
    simp only [uniSources, List.mem_map]
    rintro _ ⟨c, hc, rfl⟩
    have hl := (h c hc).1
    simp only [staleOf, if_true, ite_eq_right_iff, reduceCtorEq, imp_false, Bool.not_eq_true]
    by_cases h1 : 48 ≤ c <;> by_cases h2 : c ≤ 51 <;> simp [h1, h2]
    simpa using hl h1 h2
  have h3 : (uniSources g codes).findSome? (x.pendingOf p) = none := by
    apply findSome?_none
    simp only [uniSources, List.mem_map]
    rintro _ ⟨c, hc, rfl⟩
    have hl := (h c hc).2
    cases g <;> simp_all [Warp.pendingOf]
  simp [Warp.readCause, h1, h2, h3]

theorem mapPlace_get {α : Type} (f : Nat → α → α) : ∀ (i : Nat) (l : List α) (k : Nat),
    (mapPlace f i l)[k]? = l[k]?.map (f (i + k)) := by
  intro i l
  induction l generalizing i with
  | nil => simp [mapPlace]
  | cons a r ih => intro k; cases k <;> simp [mapPlace, ih, Nat.add_assoc, Nat.add_comm 1]

theorem mapPlace_length {α : Type} (f : Nat → α → α) : ∀ (i : Nat) (l : List α), (mapPlace f i l).length = l.length := by
  intro i l
  induction l generalizing i with
  | nil => rfl
  | cons a r ih => simp [mapPlace, ih]

theorem byte_of_sum (f : Nat → Nat) (h0 : f 0 < 256) (h1 : f 1 < 256) (h2 : f 2 < 256) (h3 : f 3 < 256) (k : Nat) (hk : k < 4) :
    (f 0 + f 1 * 256 + f 2 * 65536 + f 3 * 16777216) / 2 ^ (8 * k) % 256 = f k := by
  match k, hk with
  | 0, _ => simp; omega
  | 1, _ => simp; omega
  | 2, _ => simp; omega
  | 3, _ => simp; omega

theorem mergeBytes_byte (m : BitVec 4) (a b : Word) (k : Nat) (hk : k < 4) :
    (mergeBytes m a b).extractLsb' (8 * k) 8 = if m.getLsbD k then a.extractLsb' (8 * k) 8 else b.extractLsb' (8 * k) 8 := by
  let f (i : Nat) : Nat := if m.getLsbD i then bitsOf 8 (8 * i) a.toNat else bitsOf 8 (8 * i) b.toNat
  have hf (i : Nat) : f i < 256 := by
    simp only [f, bitsOf]; split <;> exact Nat.mod_lt _ (by decide)
  have hm : mergeBytes m a b = BitVec.ofNat 32 (f 0 + f 1 * 256 + f 2 * 65536 + f 3 * 16777216) := by
    simp [mergeBytes, List.range_succ, f]
  apply BitVec.eq_of_toNat_eq
  have h0 := hf 0; have h1 := hf 1; have h2 := hf 2; have h3 := hf 3
  have hlt : f 0 + f 1 * 256 + f 2 * 65536 + f 3 * 16777216 < 2 ^ 32 := by omega
  rw [hm, BitVec.extractLsb'_toNat, BitVec.toNat_ofNat, Nat.mod_eq_of_lt hlt, Nat.shiftRight_eq_div_pow]
  have := byte_of_sum f h0 h1 h2 h3 k hk
  rw [show (2:Nat) ^ 8 = 256 from rfl, this]
  simp only [f, bitsOf]
  split <;> simp [Nat.shiftRight_eq_div_pow]

theorem newCell_merged (named : Bool) (en : BitVec 4) (res : Word) (old : Cell32) : Merged en res old (newCell named en res old) := by
  refine ⟨fun h => by simp [newCell, h], fun h => by subst h; simp [newCell], ?_⟩
  intro k hk
  unfold newCell
  split
  · have : en = 15 := by simpa using ‹(en == 15) = true›
    subst this
    interval_cases k <;> simp [Cell32.of]
  · split
    · have : en = 0 := by simpa using ‹(en == 0) = true›
      subst this; simp
    · rw [mergeBytes_byte en res old.v k hk]

theorem laneResult_gives {i : Instr} {s : State} {x base : Warp} {p : Split} {nw : Bool} {d : Nat} {g : BitVec 3} {neg : Bool} {n : Nat}
    {res : Nat → Word} (hw : base.width = x.width)
    (ho : ∀ l, p.mask.getLsbD l = true → base.oldCell p nw d l = oldLane x p nw d l)
    (h : exec i s = .next (s.putWarp s.cur (((base.writeLanes s.cur.b p nw d (x.enabled p g neg n) res)).advance s.cur.b))) :
    GivesLane i s x base p nw d (x.enabled p g neg n) res := by
  refine ⟨fun l => newCell (!nw && d != 0) (x.enabled p g neg n l) (res l) (base.oldCell p nw d l), _, _, _, h, ?_, ?_, ?_, ?_, ?_⟩
  · simp [mapPlace_length]
  · simp [hw]
  · intro l hl; rw [← ho l hl]; exact newCell_merged _ _ _ _
  · intro l a ha
    simp only [mapPlace_get, ha, Option.map_some, Nat.zero_add, Lane.push, Lane.setV]
  · intro l hl hm
    simp [hw, hl, hm]

theorem oldCell_eq (x : Warp) (p : Split) (nw : Bool) (d l : Nat) : x.oldCell p nw d l = oldLane x p nw d l := rfl

theorem laneWord_gives {i : Instr} {s : State} {x : Warp} {p : Split} {nw : Bool} {g : BitVec 3} {neg : Bool} {d n : Nat}
    {codes : List Nat} {res : Warp → Split → Nat → Word} (h : At s x p) (hs : isSwitching i = false)
    (hr : LanesReadable x p (x.enabledLanes p g neg n) codes)
    (he : exec i s = laneWord i s nw g neg d n codes res) :
    GivesLane i s x x p nw d (x.enabled p g neg n) (res x p) := by
  apply laneResult_gives rfl (fun l _ => rfl)
  rw [he, laneWord, issue_at h hs]
  simp [readCause_lanes hr, Warp.laneResult]

/-- A fold that adds distinct powers of two has bit i exactly where the test holds. -/
theorem maskNat_bit (f : Nat → Bool) (w i : Nat) :
    ((List.range w).foldl (fun a l => if f l then a + 2 ^ l else a) 0).testBit i = (decide (i < w) && f i) ∧
    (List.range w).foldl (fun a l => if f l then a + 2 ^ l else a) 0 < 2 ^ w := by
  induction w with
  | zero => simp
  | succ n ih =>
    rw [List.range_succ, List.foldl_append]
    simp only [List.foldl_cons, List.foldl_nil]
    generalize hm : (List.range n).foldl (fun a l => if f l then a + 2 ^ l else a) 0 = m at ih ⊢
    obtain ⟨ih, hlt⟩ := ih
    constructor
    · cases hf : f n
      · simp only [Bool.false_eq_true, if_false, ih]
        by_cases hi : i = n
        · subst hi; simp [hf]
        · simp [show (i < n + 1) ↔ (i < n) by omega]
      · simp only [if_true]
        by_cases hi : i = n
        · subst hi
          rw [Nat.add_comm, Nat.testBit_two_pow_add_eq, Nat.testBit_lt_two_pow hlt]; simp [hf]
        · by_cases hl : i < n
          · rw [Nat.add_comm, Nat.testBit_two_pow_add_gt hl, ih]; simp [hl]; omega
          · rw [Nat.testBit_lt_two_pow]
            · simp; omega
            · calc m + 2 ^ n < 2 ^ n + 2 ^ n := by omega
                _ = 2 ^ (n + 1) := by rw [Nat.pow_succ]; omega
                _ ≤ 2 ^ i := Nat.pow_le_pow_right (by omega) (by omega)
    · rw [Nat.pow_succ]; split <;> omega

theorem maskOf_bit (w : Nat) (f : Nat → Bool) (i : Nat) (hi : i < 64) :
    (maskOf w f).getLsbD i = (decide (i < w) && f i) := by
  rw [maskOf, BitVec.getLsbD_ofNat, (maskNat_bit f w i).1]; simp [hi]

theorem arithCause_none {x : Warp} {fl : Nat → Nat} (h : NoTrap x fl) : arithCause x.fpc x.width fl = none := by
  apply findSome?_none
  intro e he
  have key : ∀ j < 5, x.fpc.getLsbD (8 + j) = true → maskOf x.width (fun l => fl l / 2 ^ j % 2 == 1) = 0 := by
    intro j hj hb
    apply maskOf_false
    intro l hl
    have := h l hl j hj hb
    rw [Nat.testBit_eq_decide_div_mod_eq] at this
    simpa using this
  have k0 := key 0 (by omega)
  have k1 := key 1 (by omega)
  have k2 := key 2 (by omega)
  have k3 := key 3 (by omega)
  have k4 := key 4 (by omega)
  simp only [List.mem_cons, List.not_mem_nil, or_false] at he
  rcases he with rfl | rfl | rfl | rfl | rfl <;>
    simp only [ite_eq_right_iff, reduceCtorEq, imp_false, Bool.and_eq_true, not_and] <;> intro hb
  · simp_all
  · simp_all
  · simp_all
  · simp_all
  · simp_all

theorem foldl_or (g : Nat → Nat) (l : List Nat) (a : Nat) : l.foldl (fun a i => a ||| g i) a = a ||| l.foldl (fun a i => a ||| g i) 0 := by
  induction l generalizing a with
  | nil => simp
  | cons b r ih => simp only [List.foldl_cons]; rw [ih, ih (0 ||| g b)]; simp [Nat.or_assoc]

theorem setPred_bits (a : Lane) (d : Nat) (andIn : Bool) (en bits : BitVec 4) (b : Nat → Bool) (hb : ∀ i < 4, bits.getLsbD i = b i) :
    ∃ q : BitVec 4, a.setPred d andIn en bits = { a with p := a.p.set d q } ∧ ∀ i < 4, q.getLsbD i =
        if en.getLsbD i then b i && (!andIn || (a.p.getD d 0).getLsbD i) else (a.p.getD d 0).getLsbD i := by
  refine ⟨_, rfl, ?_⟩
  intro i hi
  simp only [BitVec.getLsbD_or, BitVec.getLsbD_and, BitVec.getLsbD_not, hi, decide_true, Bool.true_and, ← hb i hi]
  cases andIn <;> simp only [Bool.false_eq_true, if_false, if_true, BitVec.getLsbD_and] <;>
    generalize bits.getLsbD i = u <;> generalize en.getLsbD i = v <;> generalize (a.p.getD d 0).getLsbD i = w <;>
    revert u v w <;> decide

theorem writePred_gives {i : Instr} {s : State} {base : Warp} {p : Split} {dp : Nat} {andIn : Bool} {en : Nat → BitVec 4}
    {bits : Nat → BitVec 4} {b : Nat → Nat → Bool} (hb : ∀ l, ∀ i < 4, (bits l).getLsbD i = b l i) (hd : Bool)
    (h : exec i s = .next (s.putWarp s.cur ((({ base with dirty := hd } : Warp).writePred p dp andIn en bits).advance s.cur.b))) :
    GivesPred i s base p dp andIn en b := by
  refine ⟨_, hd, h, ?_, ?_⟩
  · simp [mapPlace_length]
  · intro l a ha
    obtain ⟨q, hq, hq2⟩ := setPred_bits a dp andIn (en l) (bits l) (b l) (hb l)
    refine ⟨q, ?_, hq2⟩
    simp only [mapPlace_get, ha, Option.map_some, Nat.zero_add, hq]

theorem condBits_get (n : Nat) (r : Nat → Bool) (i : Nat) (hi : i < 4) : (condBits n r).getLsbD i = r (i / n) := by
  have : ∀ (b0 b1 b2 b3 : Bool), ∀ j < 4, (BitVec.ofNat 4 (bit b0 + 2 * bit b1 + 4 * bit b2 + 8 * bit b3)).getLsbD j =
      if j = 0 then b0 else if j = 1 then b1 else if j = 2 then b2 else b3 := by decide
  rw [condBits, this _ _ _ _ i hi]
  match i, hi with
  | 0, _ => simp
  | 1, _ => simp
  | 2, _ => simp
  | 3, _ => simp

theorem lanePredWord_gives {i : Instr} {s : State} {x : Warp} {p : Split} {f : FmtP} {n : Nat} {codes : List Nat}
    {res : Warp → Split → Nat → Nat → Bool} {flags : Warp → Split → Nat → Nat → Nat} (fl : Nat → Nat)
    (h : At s x p) (hs : isSwitching i = false)
    (hr : LanesReadable x p (x.enabledLanes p f.g f.neg n) codes)
    (hfl : ∀ l, (List.range (4 / n)).foldl
        (fun a k => if (x.enabled p f.g f.neg n l).getLsbD (n * k) then a ||| flags x p l k else a) 0 = fl l)
    (ht : NoTrap x fl)
    (he : exec i s = lanePredWord i f s n codes res flags) :
    GivesPred i s (raised x fl) p f.dp.toNat f.x (x.enabled p f.g f.neg n) fun l k => res x p l (k / n) := by
  apply writePred_gives (bits := fun l => condBits n (res x p l)) (fun l k hk => condBits_get n _ k hk)
    (x.raise ((List.range x.width).foldl (fun a l => a ||| fl l) 0)).dirty
  rw [he, lanePredWord, issue_at h hs]
  simp only [readCause_lanes hr, hfl, arithCause_none ht]
  simp [raised, Warp.raise, Nat.mul_comm]

theorem raised_zero (x : Warp) : raised x (fun _ => 0) = x := by simp [raised]

end Sys2Proof.Laws
end

