-- ==== Sys2Proof/Tests/Slice0.lean ====
section
/-! SUPPORT. Tests: words that the spec writes out, checks that refuse, single steps, and for each statement a state and operands
that meet its hypotheses. -/

namespace Sys2Proof.Tests

set_option Elab.async false

open Sys2Proof Sys2Proof.Machine Sys2Proof.Claims Sys2Proof.Laws

/-! ### Decoding: one word of every opcode, its fields read off R37 and Table 9 by hand -/

/-- The fields of 0x722906 as L3 or U3: guard 7, a = 17, b = 18, d = 3, x = 0. -/
def f3 : Fmt3 := { nw := false, g := 7, neg := false, a := 17, b := 18, d := 3, x := false }
/-- As L4 or U4: c = 3. -/
def f4 : Fmt4 := { nw := false, g := 7, neg := false, a := 17, b := 18, c := 3, x := false }
/-- As LI or UI: imm13 = 0x906. -/
def fI : FmtI := { nw := false, g := 7, neg := false, a := 17, imm := 0x906 }
/-- As LP: predicate 0, condition 3. -/
def fP : FmtP := { r := false, g := 7, neg := false, a := 17, b := 18, dp := 0, cc := 3, x := false }
/-- As CV: source format 4, destination format 8, mode 1, SAT 1. -/
def fV : FmtV := { nw := false, g := 7, neg := false, a := 17, sf := 4, df := 8, rm := 1, sat := true, x := false }
/-- As LM: base 0, f = 6. -/
def fM : FmtM := { r := false, g := 7, neg := false, a := 17, b := 18, base := 0, f := 6 }
/-- As LC: imm13 = 0x906. -/
def fL : FmtL := { r := false, g := 7, neg := false, a := 17, imm := 0x906 }
/-- As UB: guard 3, negated, offset 0x22906. -/
def fB : FmtB := { g := 3, neg := true, off := 0x22906 }

/-- What a run of opcodes decodes to, each with the bits 0x722906 below it. -/
def row (first n : Nat) : List (Option Instr) := (List.range n).map fun i => decodeHead ((first + i) * 2 ^ 24 + 0x722906)

theorem test_decode_lane0 : row 0x00 16 = [some (.nop 0x722906), some (.if_ fL), some (.else_ fL), some (.endif fL), some (.do_ fL),
    some (.enddo fL), some (.brk fL), some (.cont fL), some (.brx fL), some (.rcv fL), some (.bar fL), some (.bara fL), some (.barw fL),
    some (.trig fL), some (.yield fL), some (.exit fL)] := by decide +kernel
theorem test_decode_lane1 : row 0x10 16 = [some (.mov f3), some (.movi fI), some (.iadd f3), some (.isub f3), some (.imul f3),
    some (.imulh f3), some (.imad f4), some (.imin f3), some (.imax f3), some (.iabs f3), some (.addi fI), some (.and f3), some (.or f3),
    some (.xor f3), some (.andn f3), some (.andi fI)] := by decide +kernel
theorem test_decode_lane2 : row 0x20 16 = [some (.ori fI), some (.xori fI), some (.shl f3), some (.shr f3), some (.sar f3), some (.rot f3),
    some (.shli fI), some (.shri fI), some (.sari fI), some (.popc f3), some (.clz f3), some (.brev f3), some (.bfx f3), some (.bfi f4),
    some (.redx f3), some (.scan f3)] := by decide +kernel
theorem test_decode_lane3 : row 0x30 16 = [some (.icmpW fP), some (.icmpH2 fP), some (.icmpB4 fP), some (.fcmp fP), some (.bcmp2 fP),
    some (.plog fP), some (.pset fP), some (.pget f3), some (.sel f4), some (.shfl f3), some (.shflup f3), some (.shfldn f3),
    some (.shflx f3), some (.vote f3), some (.match_ f3), none] := by decide +kernel
theorem test_decode_lane4 : row 0x40 16 = [some (.fadd f3), some (.fsub f3), some (.fmul f3), some (.ffma f4), some (.fmin f3),
    some (.fmax f3), some (.badd2 f3), some (.bmul2 f3), some (.bfma2 f4), some (.hadd2 f3), some (.hmul2 f3), some (.hfma2 f4),
    some (.frcp f3), some (.frsq f3), some (.fsqrt f3), some (.fexp2 f3)] := by decide +kernel
theorem test_decode_lane5 : row 0x50 16 = [some (.flog2 f3), some (.fsin f3), some (.fcos f3), some (.ftanh f3), some (.cvt fV),
    some (.cvtp fV), some (.cvtu fV), some (.frnd fV), some (.i2f fV), some (.f2i fV), some (.mxq fV), some (.mxd fV), some (.dot4 f4),
    none, none, none] := by decide +kernel
theorem test_decode_lane6 : row 0x60 16 = [some (.lds fM), some (.sts fM), some (.ats fM), none, some (.fpush fM), some (.fpop fM),
    some (.fpeek fM), some (.pref fM), some (.waitc fL), none, none, none, some (.ldg fM), some (.ldga fM), some (.stg fM),
    some (.stgl fM)] := by decide +kernel
theorem test_decode_lane7 : row 0x70 16 = [some (.atgCore fM), some (.atgClus fM), some (.atgDie fM), some (.atgPkg fM), some (.atgSys fM),
    some (.redgDie fM), some (.redgPkg fM), some (.redgSys fM), some (.spawn f3), some (.spawnt f3), some (.tagset f3), some (.tagv f3),
    none, none, some (.rdlane f3), some (.wrlane f3)] := by decide +kernel
theorem test_decode_unif0 : row 0x80 8 = [some (.bra fB), some (.call fB), some (.calli f3), some (.ret f3), some (.hloop fI),
    some (.bri f3), some (.gang f3), none] := by decide +kernel
theorem test_decode_unif1 : row 0x90 16 = [some (.umov f3), some (.uldk f3 0 0), some (.uadd f3), some (.usub f3), some (.umul f3),
    some (.umulh f3), some (.umad f4), some (.uand f3), some (.uor f3), some (.uxor f3), some (.ushl f3), some (.ushr f3), some (.usar f3),
    some (.uaddi fI), some (.uandi fI), some (.ushli fI)] := by decide +kernel
theorem test_decode_unif2 : row 0xA0 11 = [some (.ushri fI), some (.umin f3), some (.umax f3), some (.upopc f3), some (.uclz f3),
    some (.ucmp fP), some (.uplog fP), some (.usel f4), some (.mfs fI), some (.mts fI), none] := by decide +kernel
theorem test_decode_unif3 : row 0xB0 7 = [some (.join f3), some (.ftest f3), some (.fcancel f3), some (.texit f3), some (.dqlen f3),
    some (.tself f3), none] := by decide +kernel
theorem test_decode_unif4 : row 0xC0 12 = [some (.ldu fM), some (.stu fM), some (.atu fM), some (.rwb f3), some (.rinv f3), some (.rwbi f3),
    some (.fence fI), some (.xpub f3), some (.waitv f4), some (.qfence fI), some (.xprobe f3), none] := by decide +kernel
theorem test_decode_unif5 : row 0xD0 5 = [some (.cpy f4), some (.cpy2d f4), some (.coll f4), some (.eqstat f3), none] := by decide +kernel
theorem test_decode_unif6 : row 0xE0 13 = [some (.mma f4), some (.mmat f4), some (.mperm f4), some (.mred f4), some (.mload f3),
    some (.mstore f3), some (.mres f3), some (.mresq f3), some (.mfence f3), some (.mwait fI), some (.mgrad f4), some (.mzero f3),
    none] := by decide +kernel
theorem test_decode_unif7 : row 0xF0 12 = [some (.trap fI), some (.eret f3), some (.savec f3), some (.rstc f3), some (.sigs f3),
    some (.bkpt f3), some (.bankset f3), some (.bankq f3), some (.lvcall f3), some (.lvret f3), some (.rgset f3), none] := by decide +kernel

/-! ### WellFormed: an ill-formed term for each check, with the cause and word bit of R53 and R54 -/

/-- A kernel of width 16 that declares every register. -/
def e0 : Env := { width := 16, nv := 32, ns := 32, handler := false, firmware := false }

/-- Whether each term of a list is refused, with its cause. -/
def refused (e : Env) (l : List (Instr × Nat × Nat)) : Bool := l.all fun c => !c.1.wellFormed e && decodeFault e c.1 == some c.2

theorem test_accepted : ([.iadd { f3 with d := 16 }, .imad f4, .addi fI, .icmpW fP, .sts fM, .uadd { f3 with d := 0 }, .usel f4, .bra fB] : List Instr).all
    (fun i => i.wellFormed e0) = true := by decide +kernel
theorem test_refused_sets : refused { e0 with firmware := true } [(.iadd f3, 0x041, 0)] = true ∧
    refused e0 [(.lvcall f3, 0x141, 0)] = true := by decide +kernel
theorem test_refused_common : refused e0 [(.iadd { f3 with neg := true, d := 0 }, 0x042, 19), (.iadd { f3 with nw := true, d := 16 }, 0x042, 1),
    (.bra { fB with g := 7 }, 0x042, 20), (.icmpW { fP with r := true }, 0x042, 23), (.icmpW { fP with dp := 7 }, 0x042, 4),
    (.iadd { f3 with d := 15 }, 0x042, 1), (.iadd { f3 with a := 61, d := 0 }, 0x042, 13), (.uadd { f3 with b := 56, d := 0 }, 0x042, 7)]
    = true := by decide +kernel
theorem test_refused_fixed : refused e0 [(.mov { f3 with d := 0 }, 0x042, 7), (.movi fI, 0x042, 13), (.bar { fL with a := 0, imm := 256 }, 0x042, 0),
    (.bar { fL with a := 0, imm := 1, g := 3 }, 0x042, 19), (.endif { fL with a := 0 }, 0x042, 0), (.enddo { fL with a := 0, imm := 5 }, 0x042, 0),
    (.brk { fL with a := 0, imm := 254 }, 0x042, 0), (.shli { fI with imm := 32 }, 0x042, 0), (.ushli { fI with imm := 64 }, 0x042, 0),
    (.hloop { fI with imm := 257 }, 0x042, 0), (.ret { f3 with b := 0, d := 0, nw := true }, 0x042, 23), (.xprobe { f3 with b := 0, x := true }, 0x042, 0)]
    = true := by decide +kernel
theorem test_refused_parts : refused e0 [(.redx { f3 with b := 11, d := 0 }, 0x042, 7), (.redx { f3 with b := 16, d := 0 }, 0x042, 11),
    (.scan { f3 with b := 32, d := 0 }, 0x042, 12), (.plog { fP with a := 16, b := 0 }, 0x042, 17), (.plog { fP with a := 0, b := 16 }, 0x042, 11),
    (.plog { fP with a := 0, b := 0, cc := 7 }, 0x042, 1), (.plog { fP with a := 0, b := 1, cc := 6 }, 0x042, 7), (.pset { fP with b := 0 }, 0x042, 1),
    (.pget { f3 with a := 8, b := 0, d := 0 }, 0x042, 16), (.sel { f4 with c := 16 }, 0x042, 5), (.vote { f3 with a := 0, b := 4, d := 0 }, 0x042, 7)]
    = true := by decide +kernel
theorem test_refused_formats : refused e0 [(.cvt { fV with sf := 15 }, 0x042, 9), (.cvt { fV with df := 15 }, 0x042, 5),
    (.cvt { fV with sf := 4, df := 4 }, 0x042, 5), (.cvtu { fV with sf := 3, df := 1, rm := 1, sat := false }, 0x042, 2),
    (.cvtu { fV with sf := 3, df := 1, rm := 0 }, 0x042, 1), (.mxq { fV with sf := 0, df := 3, sat := false }, 0x042, 0),
    (.mxq { fV with sf := 1, df := 13, sat := false }, 0x042, 2)] = true := by decide +kernel
theorem test_refused_memory : refused e0 [(.lds { fM with b := 0, f := 7 }, 0x042, 0), (.fpush { fM with b := 0 }, 0x042, 13),
    (.pref { fM with b := 0, f := 3 }, 0x042, 0), (.waitc { fL with imm := 4 }, 0x042, 0), (.lds { fM with b := 45, f := 6 }, 0x042, 7),
    (.sts { fM with b := 14, f := 6 }, 0x042, 7), (.fence { fI with a := 0, imm := 0x20 }, 0x042, 0), (.fence { fI with a := 0, imm := 1 }, 0x042, 3),
    (.qfence { fI with a := 0, imm := 0x40 }, 0x042, 0), (.mwait { fI with imm := 18 }, 0x042, 0), (.xpub { f3 with d := 6 }, 0x042, 1),
    (.xpub { f3 with d := 9 }, 0x042, 4), (.mfs { fI with a := 0, imm := 4 }, 0x042, 0), (.mts { fI with imm := 0 }, 0x042, 0),
    (.cpy2d { f4 with c := 15 }, 0x042, 1)] = true := by decide +kernel
theorem test_refused_operands : refused { e0 with nv := 1, ns := 1 } [(.iadd { f3 with a := 0, b := 0, d := 17 }, 0x043, 1),
    (.iadd { f3 with a := 17, b := 0, d := 0 }, 0x043, 13), (.lds { fM with a := 0, b := 0, base := 1, f := 4 }, 0x043, 3),
    (.lds { fM with a := 48, b := 0, f := 4 }, 0x043, 13), (.sts { fM with a := 0, b := 48, f := 4 }, 0x043, 7),
    (.stu { fM with a := 0, b := 16, f := 6 }, 0x043, 7), (.cpy2d { f4 with a := 0, b := 0, c := 16 }, 0x043, 1)] = true ∧
    refused { e0 with width := 32 } [(.spawn { f3 with d := 0 }, 0x042, 7)] = true ∧
    refused e0 [(.spawn { f3 with b := 61, d := 0 }, 0x042, 7), (.spawn { f3 with b := 49, d := 0 }, 0x043, 7)] = true := by decide +kernel
theorem test_refused_literal : (Instr.uldk { f3 with a := 0, b := 0, d := 0 } 5 1).wellFormed e0 = false := by decide +kernel

/-! ### A small state: one warp of width 16 at the first word of its kernel -/

def cur0 : Cur := { core := 0, slot := 0, b := false }
def s0 : State := { State.reset.withFetchWord 32 0 with cur := cur0 }
def x0 : Warp := placedLaunch.rootWarp 1 0 0 0x40000000
def p0 : Split := Split.start 0x20040 0xFFFF

theorem warp0 : s0.warp 0 0 = some x0 := by decide +kernel
theorem split0 : x0.a = some p0 := by decide +kernel
theorem at0 : At s0 x0 p0 := ⟨warp0, split0, by decide +kernel⟩

/-- The small state with another warp on the slot. -/
def sw (y : Warp) : State := s0.putWarp cur0 y

theorem warp_sw (y : Warp) : (sw y).warp 0 0 = some y := warp_setWarp_self y warp0
theorem at_sw {y : Warp} {q : Split} (h : y.a = some q) (hm : y.misfit = none := by rfl) : At (sw y) y q := ⟨warp_sw y, h, hm⟩

theorem opens0 {i : Instr} (h : isSwitching i = false) : Opens i s0 s0 x0 p0 := ⟨x0, p0, at0, by simp [h]⟩
theorem opens_sw {i : Instr} {y : Warp} {q : Split} (h : isSwitching i = false) (hq : y.a = some q) (hm : y.misfit = none := by rfl) :
    Opens i (sw y) (sw y) y q :=
  ⟨y, q, at_sw hq hm, by simp [h]⟩

/-- The small warp once a word of the switching class has cleared its latches. -/
def xc : Warp := cleared s0 x0 p0
def pc0 : Split := p0.clearLatches
def s1 : State := s0.putWarp cur0 xc
theorem opensc {i : Instr} (h : isSwitching i = true) : Opens i s0 s1 xc pc0 := ⟨x0, p0, at0, by simp [h, xc, pc0, s1]; rfl⟩

theorem cells0 : ∀ c < 64, c < 48 ∨ 52 ≤ c → ∀ l < 16, (x0.src p0 (.int 32) c l).pend = none ∧ (x0.src p0 (.int 32) c l).poison = none := by
  decide +kernel
theorem ucells0 : ∀ c < 64, c < 48 ∨ 52 ≤ c → (x0.usrc p0 c).pend = none ∧ (x0.usrc p0 c).poison = none := by decide +kernel

theorem lanes0 {m : LaneMask} {codes : List Nat} (h : ∀ c ∈ codes, c < 64 ∧ (c < 48 ∨ 52 ≤ c)) : LanesReadable x0 p0 m codes := by
  intro c hc
  refine ⟨fun _ _ => by have := h c hc; omega, fun l hl _ => ?_⟩
  simp [cells0 c (h c hc).1 (h c hc).2 l hl]
theorem uni0 {g : Bool} {codes : List Nat} (h : ∀ c ∈ codes, c < 64 ∧ (c < 48 ∨ 52 ≤ c)) : UniReadable x0 p0 g codes := by
  intro c hc
  refine ⟨fun _ _ => by have := h c hc; omega, fun _ => ?_⟩
  simp [ucells0 c (h c hc).1 (h c hc).2]

/-- The lane 0 that a step leaves on the small state's slot. -/
def lane (o : Out) : Option Lane :=
  match o with
  | .next s => (s.warp 0 0).map fun x => x.lane 0
  | _ => none

/-- A value that a step leaves in the small state's warp. -/
def left {α : Type} (o : Out) (g : Warp → α) : Option α :=
  match o with
  | .next s => (s.warp 0 0).map g
  | _ => none

/-! ### Single steps -/

theorem test_movi : left (step { s0 with mem := memWrite s0.mem 0x20040 (toBytes 4 0x11701FFB) }) (fun x => ((x.lane 3).q.getD 0 (Cell32.of 0)).v) =
    some 0xFFFFFFFB := by decide +kernel
theorem test_movi_pc : left (step { s0 with mem := memWrite s0.mem 0x20040 (toBytes 4 0x11701FFB) }) (fun x => x.a.map (·.pc)) =
    some (some 0x20044) := by decide +kernel
/-- Lane 5 of IADD.h2 with both halves −1 plus 2 (constants −1 and 2, x = 1). -/
theorem test_iadd_halves : left (exec (.iadd { f3 with a := 54, b := 55, d := 0, x := true }) s0) (fun x => ((x.lane 5).q.getD 0 (Cell32.of 0)).v) =
    some 0x00010001 := by decide +kernel
/-- R116: a shift by −1 is a shift by a large amount. -/
theorem test_shl_large : left (exec (.shl { f3 with a := 53, b := 54, d := 0 }) s0) (fun x => ((x.lane 5).q.getD 0 (Cell32.of 0)).v) =
    some 0 := by decide +kernel
/-- R154, R119: −1.0 < 2.0. -/
theorem test_fcmp : left (exec (.fcmp { fP with a := 54, b := 55, cc := 2 }) s0) (fun x => (x.lane 5).p.getD 0 0) = some 0xF := by decide +kernel
/-- R100, R134: 2 − (−1) in 64 bits. -/
theorem test_usub : left (exec (.usub { f3 with a := 55, b := 54, d := 16 }) s0) (fun x => (x.s.getD 0 (Cell64.of 0)).v) = some 3 := by decide +kernel
/-- R83: BRA goes to its word's address plus four times the offset. -/
theorem test_bra : left (exec (.bra { fB with g := 7, neg := false, off := 0xFFFFB }) s0) (fun x => x.a.map (·.pc)) = some (some 0x2002C) := by
  decide +kernel
/-- R343: without a handler a TRAP stops the warp. -/
theorem test_trap : left (exec (.trap { fI with a := 0, imm := 5 }) s0) (fun x => x.status) = some .failed := by decide +kernel
/-- R235: a store to a read-only page takes 0x103 or another cause, so the warp without a handler stops. -/
theorem test_stg_cause : left (exec (.stg { fM with a := 52, b := 55, f := 4 }) s0) (fun x => x.status) = some .failed := by decide +kernel

/-! ### Hypotheses that are met: lane and uniform words -/

theorem witness_LaneIntegers : At s0 x0 p0 ∧ LanesReadable x0 p0 (x0.enabledLanes p0 7 false 2) [0, 16, 60] := ⟨at0, lanes0 (by decide)⟩
theorem witness_LaneCompares : At s0 x0 p0 ∧ LanesReadable x0 p0 (x0.enabledLanes p0 7 false 1) [0, 47] ∧ NoTrap x0 (fun _ => 16) :=
  ⟨at0, lanes0 (by decide), by unfold NoTrap; decide +kernel⟩
theorem witness_LanePredicates : At s0 x0 p0 ∧ LanesReadable x0 p0 (x0.enabledLanes p0 6 true 4) [15, 52] := ⟨at0, lanes0 (by decide)⟩
/-- A lane is the lowest active one, and sources read in every mask. -/
theorem witness_LaneMoves : At s0 x0 p0 ∧ x0.width ≤ 64 ∧ (∀ m : LaneMask, LanesReadable x0 p0 m [0] ∧ LanesReadable x0 p0 m [55]) ∧
    (x0.active p0 7 false).getLsbD 0 = true ∧ x0.active p0 7 true = 0 ∧ UniReadable x0 p0 true [0, 16] :=
  ⟨at0, by decide +kernel, fun _ => ⟨lanes0 (by decide), lanes0 (by decide)⟩, by decide +kernel, by decide +kernel, uni0 (by decide)⟩
theorem witness_ReductionTreeAdds : ([1, 2, 3, 4] : List Word).length = 2 ^ 2 := rfl
theorem witness_FloatWords : At s0 x0 p0 ∧ LanesReadable x0 p0 (x0.enabledLanes p0 7 false 2) [0, 16, 53] ∧ NoTrap x0 (fun _ => 31) :=
  ⟨at0, lanes0 (by decide), by unfold NoTrap; decide +kernel⟩
theorem witness_SpecialFunctionWords : At s0 x0 p0 ∧ LanesReadable x0 p0 (x0.enabledLanes p0 7 false 4) [16] ∧
    (F32.unpack 0x7FC00000).isNan = true := ⟨at0, lanes0 (by decide), by decide +kernel⟩
theorem witness_FloatCorners : (Machine.Num.nan true false).isNan = true ∧ (2 : ℚ) ^ ((F32.bias : Int) + 1) ≤ (1 : Nat) * (2 : ℚ) ^ (128 : Int) := by
  refine ⟨rfl, ?_⟩
  have : (F32.bias : Int) = 127 := by decide +kernel
  rw [this]; norm_num
/-- 1.0 is a value of F32, and rounding it raises no OVERFLOW. -/
theorem witness_RoundsToNearest : isFin F32 0x3F800000 ∧ (F32.round .rne 0 false false 1 0).flags.testBit 2 = false := by
  refine ⟨⟨false, 8388608, -23, by decide +kernel⟩, by decide +kernel⟩
theorem witness_ConversionWords : At s0 x0 p0 ∧ LanesReadable x0 p0 (x0.active p0 7 false) [0] ∧
    NoTrap x0 (fun l => if (x0.active p0 7 false).getLsbD l then 31 else 0) ∧ fV.df.toNat ≠ 13 ∧ (2 : Fin 16).val < 3 :=
  ⟨at0, lanes0 (by decide), by unfold NoTrap; decide +kernel, by decide, by decide⟩
theorem witness_UniformWords : At s0 x0 p0 ∧ UniReadable x0 p0 (x0.cguard 7 false) [0, 47, 55] ∧ fP.dp ≠ 7 :=
  ⟨at0, uni0 (by decide), by decide⟩

/-! ### Control flow -/

/-- The small warp with a nesting counter in every lane. -/
def xn (n : Nat) : Warp := { x0 with lanes := x0.lanes.map fun a => { a with n := BitVec.ofNat 8 n } }

/-- Counters 254 pass IF's test, and 255 takes its cause in lane 0; 253 passes DO's; a counter of 1 and of 2 part ENDDO's cases. -/
theorem witness_NestingWords : At (sw (xn 254)) (xn 254) p0 ∧ ¬ SomeNest (xn 254) p0 (254 < ·) ∧
    At (sw (xn 255)) (xn 255) p0 ∧ 254 < ((xn 255).lane 0).n.toNat ∧ ¬ SomeNest (xn 253) p0 (253 < ·) ∧
    SomeNest (xn 1) p0 (· ≤ 1) ∧ ¬ SomeNest (xn 2) p0 (· ≤ 1) ∧ SomeNest (xn 0) p0 (· = 0) := by
  refine ⟨at_sw (by decide +kernel), ?_, at_sw (by decide +kernel), by decide +kernel, ?_, ?_, ?_, ?_⟩ <;> unfold SomeNest <;> decide +kernel

/-- The small warp with loop levels. -/
def xl (l : List Loop) : Warp := { x0 with loops := l }
def lvl (n : Nat) (a b : Nat) : Loop := { count := BitVec.ofNat 32 n, start := BitVec.ofNat 57 a, stop := BitVec.ofNat 57 b }

/-- Guards of both values, targets that are multiples of 4 and are not, and loop levels: none active, one, and all three. -/
theorem witness_BranchWords : At s0 x0 p0 ∧ x0.cguard 7 false = true ∧ x0.cguard 7 true = false ∧ UniReadable x0 p0 true [52] ∧
    (x0.uval p0 52).toNat % 4 = 0 ∧ (x0.uval p0 55).toNat % 4 ≠ 0 ∧
    (x0.uval p0 52).truncate 32 = (0 : Word) ∧ (x0.uval p0 54).truncate 32 ≠ (0 : Word) ∧
    At (sw (xl [lvl 1 0x20040 0x20100, lvl 1 0x20044 0x20080, lvl 1 0x20048 0x20060])) (xl [lvl 1 0x20040 0x20100, lvl 1 0x20044 0x20080, lvl 1 0x20048 0x20060]) p0 ∧
    ((xl [lvl 1 0x20040 0x20044, Loop.off, Loop.off]).loops.getD 0 Loop.off).stop.toNat < (p0.pc + 4 + BitVec.ofNat 57 (4 * 1)).toNat ∧
    x0.live = 1 ∧ ({ x0 with b := some p0 } : Warp).live ≠ 1 := by
  refine ⟨at0, by decide +kernel, by decide +kernel, uni0 (by decide), ?_, ?_, ?_, ?_, at_sw (by decide +kernel), ?_, ?_, ?_⟩ <;> decide +kernel

/-- A word that ends no pass, one that ends a pass with passes left, and one that ends the last pass. -/
theorem witness_ProgramCounter : x0.split false = some p0 ∧ (∀ j < 3, (x0.loops.getD j Loop.off).count = 0) ∧
    ((xl [lvl 2 0x20040 0x20044, Loop.off, Loop.off]).loops.getD 0 Loop.off).stop = p0.pc + BitVec.ofNat 57 4 ∧
    1 < ((xl [lvl 2 0x20040 0x20044, Loop.off, Loop.off]).loops.getD 0 Loop.off).count.toNat ∧
    ((xl [lvl 1 0x20040 0x20044, Loop.off, Loop.off]).loops.getD 0 Loop.off).count = 1 := by decide +kernel

/-- EXIT of lane 0 alone (predicate p0 set there) and of every lane; gang masks in range and out of it. -/
theorem witness_SmallFlowWords : At s0 x0 p0 ∧ Machine.get x0.frames p0.frame.toNat = none ∧
    p0.mask &&& ~~~(x0.active p0 7 true) ≠ 0 ∧ p0.mask &&& ~~~(x0.active p0 7 false) = 0 ∧ x0.split true = none ∧ x0.spills ≤ x0.spillBase ∧
    x0.inline = [] ∧ x0.task.kind = .root ∧ UniReadable x0 p0 true [53] ∧ 0 < (x0.uval p0 53).toNat ∧ (x0.uval p0 53).toNat < 2 ^ 16 ∧
    2 ^ 16 ≤ (x0.uval p0 54).toNat ∧ (x0.uval p0 52).toNat = 0 ∧ (s0.slot 0 0).map (·.wg) = some (some 0) ∧ (s0.launch x0.launch).isSome = true := by
  refine ⟨at0, ?_, ?_, ?_, ?_, ?_, ?_, ?_, uni0 (by decide), ?_, ?_, ?_, ?_, ?_, ?_⟩ <;> decide +kernel

theorem witness_SpecialRegisters : At s0 x0 p0 ∧ cur0.core < 512 ∧ x0.fw = none ∧ x0.task.kind = .root ∧ x0.wg = some 0 ∧ x0.frames = [] ∧
    x0.spills = 0 ∧ (x0.uval p0 55).toNat % 8 ≠ 7 ∧ (x0.uval p0 54).toNat % 8 = 7 ∧ (x0.uval p0 55).toNat % 16 < 7 ∧ 7 ≤ (x0.uval p0 54).toNat % 16 ∧
    ((xl [lvl 1 0 0, Loop.off, Loop.off]).loops.getD 0 Loop.off).count ≠ 0 ∧ UniReadable x0 p0 true [54] := by
  refine ⟨at0, ?_, ?_, ?_, ?_, ?_, ?_, ?_, ?_, ?_, ?_, ?_, uni0 (by decide)⟩ <;> decide +kernel

/-- Targets: one group for offset 0 in every lane, two groups for the lane index times 4 in lanes 0 and 1; a frame met and not met. -/
theorem witness_Divergence : At s0 x0 p0 ∧ LanesReadable (cleared s0 x0 p0) p0.clearLatches 3 [60] ∧
    (groupLanes 16 0xFFFF (fun _ => (0 : VA))).length = 1 ∧ (groupLanes 16 3 (fun l => BitVec.ofNat 57 (4 * l))).length = 2 ∧
    (groupLanes 16 0 (fun _ => (0 : VA))) = [] ∧ (0 < 255 ∧ Machine.get x0.frames 0 = none) ∧ x0.spills ≤ x0.spillRoom ∧
    (∀ e ∈ x0.loops, e.count = 0) := by
  refine ⟨at0, ?_, ?_, ?_, ?_, ?_, ?_, ?_⟩
  · unfold LanesReadable; decide +kernel
  all_goals decide +kernel

/-! ### Groups, scratchpad, global memory -/

/-- The small state with core 0 and the warp changed. -/
def sk (f : Core → Core) (y : Warp) : State := (s0.setCore 0 (f (s0.core 0))).putWarp cur0 y

/-- Group 3 of the small launch, with slot 0 its member, at a phase. -/
def grp (ph : Nat) : Group :=
  { launch := 1, wg := some 0, image := 3, members := 1, phase := ph, arrived := 0, due := [], carried := [], results := [(0, 0, some 5)], absent := [] }

/-- No group; a group with the warp not armed; armed at the open phase and at a passed one; another split that stands at BAR and one that
does not. -/
theorem witness_Barriers : At s0 x0 p0 ∧ (s0.core 0).groups = [] ∧
    At (sk (fun k => { k with groups := [grp 0] }) x0) x0 p0 ∧
    ((sk (fun k => { k with groups := [grp 0] }) x0).core 0).groups.find? (fun h => h.launch == 1 && h.image == 3 && h.members.getLsbD 0) = some (grp 0) ∧
    Machine.get x0.armed 3 = none ∧ Machine.get ({ x0 with armed := [(3, 0)] } : Warp).armed 3 = some 0 ∧ x0.live = 1 ∧
    (grp 0).phase ≤ 0 ∧ 0 < (grp 1).phase ∧ (grp 1).result 0 0 = some (some 5) ∧ ({ x0 with b := some p0 } : Warp).live ≠ 1 ∧
    ({ x0 with b := some { p0 with wait := .bar 3 } } : Warp).split true = some { p0 with wait := .bar 3 } ∧
    ({ x0 with b := some p0 } : Warp).split true = some p0 ∧ x0.spills ≤ x0.spillBase := by
  refine ⟨at0, ?_, ⟨?_, split0, ?_⟩, ?_, ?_, ?_, ?_, ?_, ?_, ?_, ?_, ?_, ?_, ?_⟩ <;> decide +kernel

/-- A SCRATCH macro 0 with an allocation of 1 KiB for the small warp's workgroup. -/
def ka (k : Core) : Core := { k with modes := [1, 0, 0, 0], allocs := [{ wg := 0, launch := 1, macros := [0], base := 0, len := 1024 }] }

/-- An aligned and a misaligned access, inside the allocation, outside it, and at its last word; a full counter and a free one. -/
theorem witness_ScratchpadWords : Opens (.lds fM) s0 s1 xc pc0 ∧ MemReadable xc pc0 fM 0xFFFF [] ∧ Dest fM.b ∧ xc.active pc0 7 false ≠ 0 ∧
    xc.active pc0 7 true = 0 ∧ IsLowest 0xFFFF 0 ∧ ((sk ka x0).window cur0 x0 1020 4).isSome = true ∧ (sk ka x0).window cur0 x0 1024 4 = none ∧
    (sk ka x0).allocOf cur0 x0 = some { wg := 0, launch := 1, macros := [0], base := 0, len := 1024 } ∧
    (placeIn [0] 1020).isSome = true ∧ inFlight xc 0 < 255 ∧ (0x40000000 : Nat) - 0x40000000 < 128 ∧ 0 < 4 ∧ 1020 % 4 = 0 := by
  refine ⟨opensc (by decide), ⟨fun _ => ?_, ?_⟩, ?_, ?_, ?_, ⟨?_, ?_, ?_⟩, ?_, ?_, ?_, ?_, ?_, ?_, ?_, ?_⟩
  · unfold UniReadable; decide +kernel
  · unfold LanesReadable; decide +kernel
  · unfold Dest; decide
  all_goals decide +kernel

/-- A RINGS macro 0, so that ring 0 exists: the checks of a push with room, and WAITC's threshold met and not met. -/
theorem witness_RingAndCounterWords : Opens (.fpush fM) s0 s1 xc pc0 ∧ ((sk (fun k => { k with modes := [3, 0, 0, 0] }) x0).core 0).ringExists 0 = true ∧
    (s0.core 0).ringExists 0 = false ∧ (inFlight xc 0 < 255 ∧ (xc.ops.filter fun o => o.ring.isSome && !o.done).length < 32) ∧
    Opens (.waitc fL) s0 s1 xc pc0 ∧ IsLowest pc0.mask 0 ∧ LanesReadable xc pc0 (BitVec.ofNat 64 (2 ^ 0)) [52] ∧
    inFlight xc 1 ≤ (xc.val pc0 (.int 32) 52 0).toNat ∧ (xc.val pc0 (.int 32) 52 0).toNat < 1 := by
  refine ⟨opensc (by decide), ?_, ?_, ?_, opensc (by decide), ⟨?_, ?_, ?_⟩, ?_, ?_, ?_⟩
  all_goals first | (unfold LanesReadable; decide +kernel) | decide +kernel

theorem witness_BankWordsAndModes : Opens (.bankset { f3 with d := 0 }) s0 s1 xc pc0 ∧ s0.cur.core < 512 ∧ UniReadable xc pc0 true [52, 53] ∧
    inFlight xc 0 < 255 ∧ (xc.uval pc0 53).toNat < 4 ∧ 4 ≤ (xc.uval pc0 54).toNat ∧ At s0 x0 p0 ∧
    (∃ t ∈ (s0.core 0).slots, t.2.launch ≠ 2) ∧ (¬ ∃ t ∈ (s0.core 0).slots, t.2.launch ≠ 1) ∧ (s0.core 0).mode 0 = 0 ∧
    (¬ ∃ i < 8, (s0.core 0).ring (8 * 0 + i) ≠ [] ∨ ∃ w ∈ (s0.core 0).ringWait, w.1 = 8 * 0 + i) ∧ (s0.core 0).allots = [] := by
  refine ⟨opensc (by decide), ?_, ?_, ?_, ?_, ?_, at0, ?_, ?_, ?_, ?_, ?_⟩
  all_goals first | (unfold UniReadable; decide +kernel) | decide +kernel

/-- The page of the small kernel's code, as its tables give it. -/
def leaf0 : Except (Nat × Nat) Leaf := s0.translate (s0.whoOf 0 x0) [] 0x20040

/-- A readable access, one that its page refuses, one at an address that the tables do not map, and a misaligned one. -/
theorem witness_GlobalWords : Opens (.ldg fM) s0 s1 xc pc0 ∧ inFlight xc 1 < 255 ∧ MemReadable xc pc0 fM 0xFFFF [] ∧
    (s1.access (s1.whoOf 0 xc) [] .read false 0x20040 4).toOption.isSome = true ∧
    (s1.access (s1.whoOf 0 xc) [] .write false 0x20040 4).toOption.isSome = false ∧ xc.active pc0 7 true = 0 ∧ IsLowest 1 0 ∧ Dest 0 ∧
    Opens (.pref fM) s0 s1 xc pc0 := by
  refine ⟨opensc (by decide), ?_, ⟨fun _ => ?_, ?_⟩, ?_, ?_, ?_, ⟨?_, ?_, ?_⟩, ?_, opensc (by decide)⟩
  all_goals first | (unfold UniReadable; decide +kernel) | (unfold LanesReadable; decide +kernel) | (unfold Dest; decide) | decide +kernel
theorem witness_AccessCauses : 0x20041 % 4 ≠ 0 ∧ (0x20040 % 4 = 0 ∧ leaf0.toOption.isSome = true) ∧ s0.populated 0x20040 = true ∧
    (leaf0.toOption.map fun l => (s0.keyOk (s0.whoOf 0 x0) l.pa l.key, l.r, l.w, l.type, inAperture l.pa)) = some (true, true, false, 0, false) := by
  decide +kernel
theorem witness_UniformMemory : Opens (.ldu fM) s0 s1 xc pc0 ∧ UniReadable xc pc0 true [16, 17] ∧ inFlight xc 1 < 255 ∧
    (s1.uniAccess cur0 xc .read false 0x20040 4).toOption.isSome = true ∧ (s1.uniAccess cur0 xc .write false 0x20040 4).toOption.isSome = false ∧
    Dest 16 ∧ (∃ w, ((State.reset.warp 512 0).bind (·.fw)) = some w ∧ w.level < 2) ∧ 0x1F0000000000000 / 2 ^ 52 = 31 ∧
    ({ Fw.reset 0 with level := 2 } : Fw).level = 2 := by
  refine ⟨opensc (by decide), ?_, ?_, ?_, ?_, ?_, ⟨Fw.reset 0, ?_, ?_⟩, ?_, ?_⟩
  all_goals first | (unfold UniReadable; decide +kernel) | (unfold Dest; decide) | decide +kernel

/-! ### Tasks -/

/-- The small launch with two tasks in its table. -/
def lt : Launch := { placedLaunch with header := { placedLaunch.header with tasks := [(0, 0), (64, 0)] } }
/-- The small state with that launch, core 0 changed and a warp on its slot. -/
def st (f : Core → Core) (y : Warp) : State := { sk f y with launches := put s0.launches 1 lt }
/-- A full deque of closures of task 0. -/
def zc (e : Nat) : Closure :=
  { words := List.replicate 32 0, launch := 1, core := 0, entry := e, gen := 1, allot := none, held := none, due := [], stamped := [], cancelled := false }
def fut0 (s : FutState) : Future := { gen := 1, st := s, launch := 1, place := 0, value := 7, cause := 0, info := 0, page := 0, orphan := false, stamped := List.replicate 8 0 }
/-- The handle of entry 0 of core 0, generation 1. -/
def xh : Warp := { x0 with s := Cell64.of 1 :: x0.s.drop 1 }

/-- A good closure, one whose task is beyond the table, one with a bad tile field; a free entry; a full deque. -/
theorem witness_Spawns : Opens (.spawn f3) s0 s1 xc pc0 ∧ LanesReadable xc pc0 0xFFFFFFFF [0, 16] ∧ x0.active p0 7 false ≠ 0 ∧ x0.active p0 7 true = 0 ∧
    ((st id x0).launch 1).map (·.header.tasks.length) = some 2 ∧ (x0.val p0 (.int 32) 0 0).toNat < 2 ∧ 2 ≤ (x0.val p0 (.int 32) 54 0).toNat ∧
    tileCause (List.replicate 32 0) = none ∧ ((s0.core 0).closures 0).length < 256 ∧ ((s0.core 0).fut 0 0).st = .free ∧
    256 ≤ ((s0.core 0).closures 0).length + 256 ∧ x0.inline.length < 8 ∧ x0.live = 1 ∧ x0.dueWrites = [] := by
  refine ⟨opensc (by decide), ?_, ?_, ?_, ?_, ?_, ?_, ?_, ?_, ?_, ?_, ?_, ?_, ?_⟩ 
  all_goals first | (unfold LanesReadable; decide +kernel) | decide +kernel

/-- Handles: one with a reserved bit, the inline handle, one of generation 0, one of a free entry and one that names a queued entry; and
a resolved entry whose stamps the die's clock covers. -/
theorem witness_JoinWords : Opens (.join f3) s0 s1 xc pc0 ∧ UniReadable xc pc0 true [52] ∧
    2 ^ 33 ≤ (0x300000000 : DWord).toNat ∧ (0x100000000 : DWord).toNat = 2 ^ 32 ∧
    s0.partOf 0 = some (s0.tenantOf 1) ∧ ((s0.core 0).fut 0 0).st = .free ∧
    ((sk (fun k => { k with futures := [(0, fut0 .queued)] }) x0).core 0).fut 0 0 = fut0 .queued ∧
    ((sk (fun k => { k with futures := [(0, fut0 .resolved)] }) x0).named x0 1 true true).toOption.isSome = true ∧
    covers (s0.die 0).clock (List.replicate 8 0) = true ∧ s0.joinBefore 1 (s0.serial + 1) = false ∧
    Opens (.ftest f3) s0 s0 x0 p0 ∧ Opens (.fcancel f3) s0 s0 x0 p0 ∧ xh.uval p0 16 = 1 ∧
    ((sk (fun k => { k with deque := [zc 0], futures := [(0, fut0 .queued)] }) x0).core 0).dequeOf 0 = [zc 0] := by
  refine ⟨opensc (by decide), ?_, ?_, ?_, ?_, ?_, ?_, ?_, ?_, ?_, opens0 (by decide), opens0 (by decide), ?_, ?_⟩
  all_goals first | (unfold UniReadable; decide +kernel) | decide +kernel

/-- TEXIT of the root task, of a task from the deque, and of an inline call. -/
theorem witness_TaskExits : Opens (.texit f3) s0 s0 x0 p0 ∧ UniReadable x0 p0 true [16] ∧ x0.inline = [] ∧ x0.task.kind = .root ∧
    ({ Task.root with kind := .deque, handle := 1 } : Task).kind = .deque ∧ tilesWhere x0.task.words tileOut = [] ∧ x0.task.allot = none := by
  refine ⟨opens0 (by decide), uni0 (by decide), ?_, ?_, ?_, ?_, ?_⟩ <;> decide +kernel
theorem witness_TaskQueries : At s0 x0 p0 ∧ s0.cur.core < 512 ∧ x0.task.kind = .root := ⟨at0, by decide +kernel, by decide +kernel⟩

/-! ### Ordering, code and engines -/

/-- An empty range, one beyond 2³⁰ bytes, and one under pages that are there, with no earlier write; no line is copied, and one is. -/
theorem witness_RangeWords : Opens (.rwb f3) s0 s1 xc pc0 ∧ UniReadable xc pc0 true [16, 17] ∧ xc.fw = none ∧ (xc.uval pc0 52).toNat = 0 ∧
    2 ^ 30 < (xc.uval pc0 54).toNat ∧ xc.ops = [] ∧
    (pagesUnder (fun va => s1.access (s1.whoOf 0 xc) [] .range false va 1) 0x20040 .range (pageRuns 0x20040 4)).toOption.isSome = true ∧
    lineAt [(5, 2)] 1 = some 6 ∧ lineAt [(5, 2)] 2 = none := by
  refine ⟨opensc (by decide), ?_, ?_, ?_, ?_, ?_, ?_, ?_, ?_⟩
  all_goals first | (unfold UniReadable; decide +kernel) | decide +kernel

/-- A FENCE with nothing in flight passes, and one with a load in flight is held; a QFENCE finds room; a WAITV reads its word. -/
theorem witness_OrderingWords : Opens (.fence fI) s0 s0 x0 p0 ∧ x0.cguard 7 false = true ∧ x0.cguard 7 true = false ∧ x0.ops = [] ∧
    (¬ ∀ o ∈ ([{ id := 0, path := 1, kind := .store, word := 0, scope := 1, acq := false, rel := false, accs := [], done := false }] : List Op), o.id < 1 → o.access = true → o.done = true) ∧
    Opens (.qfence fI) s0 s0 x0 p0 ∧ (s0.engQueue 0).places.length < 64 ∧ s0.engOps = [] ∧
    Opens (.waitv f4) s0 s1 xc pc0 ∧ UniReadable xc pc0 true [16, 17, 18] ∧ xc.fw = none ∧
    (s1.uniAccess cur0 xc .read true 0x20040 8).toOption.isSome = true := by
  refine ⟨opens0 (by decide), ?_, ?_, ?_, ?_, opens0 (by decide), ?_, ?_, opensc (by decide), ?_, ?_, ?_⟩
  all_goals first | (unfold UniReadable; decide +kernel) | decide +kernel

/-- XPUB of an empty range, of a page that may be published, and XPROBE of it. -/
theorem witness_PublishWords : Opens (.xpub f3) s0 s1 xc pc0 ∧ UniReadable xc pc0 true [16, 17] ∧ xc.guarded 1 0x20040 4 = true ∧
    (pagesUnder (s1.codeAccess cur0 xc) 0x20040 .range (pageRuns 0x20040 4)).toOption.isSome = true ∧ s1.releaseDone xc 1 1 = true ∧
    s1.engineDue xc 1 = false ∧ (1 ≤ 1 ∧ 1 ≤ 4 ∧ 1 ≤ 5 ∧ 5 ≤ 5) ∧ Opens (.xprobe f3) s0 s1 xc pc0 ∧ inFlight xc 1 < 255 ∧
    (s1.codeAccess cur0 xc 0x20040).toOption.isSome = true := by
  refine ⟨opensc (by decide), ?_, ?_, ?_, ?_, ?_, ?_, opensc (by decide), ?_, ?_⟩
  all_goals first | (unfold UniReadable; decide +kernel) | decide +kernel

/-- A control word with a class and no reserved bit copies 128 bytes that do not overlap; one with a reserved bit does not. -/
theorem witness_EngineCommands : Opens (.cpy f4) s0 s1 xc pc0 ∧ s0.cur.core < 512 ∧ UniReadable xc pc0 true [16, 17, 18, 19] ∧ inFlight xc 3 < 255 ∧
    (ctlField 0x0400000000000080 4 60 = 0 ∧ ctlField 0x0400000000000080 2 58 ≠ 0 ∧ ctlField 0x0400000000000080 16 40 = 0 ∧
      ctlField 0x0400000000000080 4 36 = 0) ∧ ctlField 0x1000000000000000 4 60 ≠ 0 ∧
    (∀ i < 4, ∀ j < 4, (0x1000 + i) % 2 ^ 57 ≠ (0x2000 + j) % 2 ^ 57) ∧ Opens (.cpy2d f4) s0 s1 xc pc0 ∧ Opens (.coll f4) s0 s1 xc pc0 ∧
    Machine.get ({ s0 with comms := [((0, 0, 1), [(0, 0)])] } : State).comms (0, 0, 1) = some [(0, 0)] ∧ Machine.get s0.comms (0, 0, 1) = none ∧
    ((s0.core 0).fut 0 0).st = .free := by
  refine ⟨opensc (by decide), ?_, ?_, ?_, ?_, ?_, ?_, opensc (by decide), opensc (by decide), ?_, ?_, ?_⟩
  all_goals first | (unfold UniReadable; decide +kernel) | decide +kernel

/-- Selectors 3 and 4, 0x10 and 0x11, and a queue whose head is a join. -/
theorem witness_EngineStatus : At s0 x0 p0 ∧ s0.cur.core < 512 ∧ UniReadable x0 p0 true [16] ∧ (x0.uval p0 16).toNat % 256 < 4 ∧
    Machine.get ({ s0 with engQueues := [(0, { places := [.join 1], done := 65537 })] } : State).engQueues 0 = some { places := [.join 1], done := 65537 } ∧
    (4 ≤ (xh.uval p0 54).toNat % 256 ∧ (xh.uval p0 54).toNat % 256 ≠ 0x10) := by
  refine ⟨at0, ?_, uni0 (by decide), ?_, ?_, ?_⟩ <;> decide +kernel

/-! ### The matrix array, causes and firmware levels -/

/-- A free array, one that another launch owns, a warp whose handler serves no stall, and operands in range and out of it. -/
theorem witness_ArrayWords : Opens (.mload f3) s0 s1 xc pc0 ∧ s0.cur.core < 512 ∧ UniReadable xc pc0 true [16, 17] ∧ (s1.core 0).matrix.owner = none ∧
    ((sk (fun k => { k with matrix := { Matrix.clear with owner := some 2 } }) x0).core 0).matrix.owner = some 2 ∧ (2 : Nat) ≠ x0.launch ∧
    (s1.core 0).serving 0 xc = false ∧ (7 : DWord).toNat < 8 ∧ (254 : DWord).toNat < 255 ∧ (256 : DWord).toNat = 256 := by
  refine ⟨opensc (by decide), ?_, ?_, ?_, ?_, ?_, ?_, ?_, ?_, ?_⟩
  all_goals first | (unfold UniReadable; decide +kernel) | decide +kernel
theorem witness_ArrayReadsAndBatches : Opens (.mresq { f3 with d := 0 }) s0 s0 x0 p0 ∧ s0.cur.core < 512 ∧ inFlight x0 3 < 255 ∧ (s0.core 0).matrix.owner = none ∧
    (x0.uval p0 16).toNat % 2 ^ 9 < 256 ∧ 256 ≤ (x0.uval p0 54).toNat % 2 ^ 9 ∧ UniReadable x0 p0 true [16] ∧ (s0.core 0).serving 0 x0 = false ∧
    Opens (.mfence f3) s0 s0 x0 p0 ∧ Opens (.mwait { fI with imm := 17 }) s0 s1 xc pc0 ∧ (s0.core 0).matrix.queue = [] ∧
    (Stall.clear.sel < 256 ∧ Stall.clear.batch < 16 ∧ Stall.clear.row < 384 ∧ Stall.clear.member < 6 ∧ Stall.clear.lane < 64 ∧ Stall.clear.op < 3) := by
  refine ⟨opens0 (by decide), ?_, ?_, ?_, ?_, ?_, uni0 (by decide), ?_, opens0 (by decide), opensc (by decide), ?_, ?_⟩ <;> decide +kernel
theorem witness_GangedWords : Opens (.mma f4) s0 s1 xc pc0 ∧ s0.cur.core < 512 ∧ UniReadable xc pc0 true [16, 17, 18] ∧
    ((s1.core 0).matrix.owner = none) ∧ (s1.core 0).serving 0 xc = false ∧ (∀ w ∈ [0], s1.present 0 w = true) ∧ s1.present 0 1 = false ∧
    xc.gang.toNat / 2 ^ 36 % 8 = 0 := by
  refine ⟨opensc (by decide), ?_, ?_, ?_, ?_, ?_, ?_, ?_⟩
  all_goals first | (unfold UniReadable; decide +kernel) | decide +kernel

/-- The small launch with a trap handler 0x100 bytes after its kernel's header. -/
def lh : Launch := { placedLaunch with header := { placedLaunch.header with trapOff := 0x100 } }
/-- A frozen state, as of a cause in split A. -/
def z0 : Frozen :=
  { cause := 0x342, inB := false, lanes := [], k := x0.k, shi := x0.s.drop 24, c := 0, a := x0.a, b := none, loops := x0.loops, loopBuf := [],
    spillBase := 0, frames := [], away := [], depth := 0, loaded := [], saved := true }
/-- The warp of a firmware core right after reset. -/
def xf : Warp := ((State.reset.warp 512 0).getD x0)

theorem witness_Traps : s0.warp 0 0 = some x0 ∧ x0.split false = some p0 ∧ x0.fw = none ∧ x0.frozen = none ∧
    (({ s0 with launches := put s0.launches 1 lh } : State).launch 1).bind Launch.trapEntry = some 0x20100 ∧ 0x342 < 2 ^ 10 ∧
    (s0.launch 1).map (fun e => (e.st, e.header.trapOff)) = some (.running, 0) ∧ s0.parked = [] ∧
    State.reset.warp 512 0 = some xf ∧ xf.split false = some (Split.start 0xD000 0) ∧ xf.fw = some (Fw.reset 0) := by decide +kernel

/-- Outside a handler and in one; a SAVEC's area that is aligned and one that is not; a saved and an unsaved context. -/
theorem witness_TrapWords : Opens (.trap fI) s0 s1 xc pc0 ∧ Opens (.bkpt f3) s0 s1 xc pc0 ∧ Opens (.eret f3) s0 s0 x0 p0 ∧ Opens (.savec f3) s0 s1 xc pc0 ∧
    xc.frozen = none ∧ xc.fw = none ∧ At (sw { x0 with frozen := some z0 }) { x0 with frozen := some z0 } p0 ∧ z0.saved = true ∧
    UniReadable xc pc0 true [16] ∧ s1.ownArea cur0 % 128 = 0 ∧ (xc.uval pc0 55).toNat % 2 ^ 57 % 128 ≠ 0 ∧ pc0.heldAt ≠ 1 ∧
    s1.drained cur0 xc = true ∧ s1.applied xc.stamped = true := by
  refine ⟨opensc (by decide), opensc (by decide), opens0 (by decide), opensc (by decide), ?_, ?_, at_sw split0, ?_, ?_, ?_, ?_, ?_, ?_, ?_⟩
  all_goals first | (unfold UniReadable; decide +kernel) | decide +kernel

/-- The state right after reset with a firmware core as the issuing one. -/
def sf : State := { State.reset with cur := { core := 512, slot := 0, b := false } }
/-- LVCALL's operand names level 1, its own level, and a level that is none; the level stack is empty. -/
theorem witness_FirmwareWords : At sf xf (Split.start 0xD000 0) ∧ 512 ≤ sf.cur.core ∧ xf.fw = some (Fw.reset 0) ∧ xf.cguard 7 false = true ∧
    xf.cguard 7 true = false ∧ (Fw.reset 0).level ≠ 2 ∧ (xf.uval (Split.start 0xD000 0) 53).toNat % 4 ≠ (Fw.reset 0).level ∧
    (xf.uval (Split.start 0xD000 0) 52).toNat % 4 = (Fw.reset 0).level ∧ 2 ^ 16 ≤ (xf.uval (Split.start 0xD000 0) 54).toNat ∧ (Fw.reset 0).stack.length < 4 ∧
    (ctlField 0x00E7 7 57 = 0 ∧ ctlField 0x00E7 4 8 = 0 ∧ ctlField 0x00E7 2 3 = 0) ∧ UniReadable xf (Split.start 0xD000 0) true [52, 53] := by
  refine ⟨⟨?_, ?_, ?_⟩, ?_, ?_, ?_, ?_, ?_, ?_, ?_, ?_, ?_, ?_, ?_⟩
  all_goals first | (unfold UniReadable; decide +kernel) | decide +kernel

/-! ### Reductions and the rows of the memory system -/

/-- REDX of a warp and of a group: no group of k0; one, with the warp not armed; and one at whose passed phase a total waits. -/
theorem witness_Reductions : At s0 x0 p0 ∧ (11 : BitVec 6).getLsbD 5 = false ∧ LanesReadable x0 p0 (x0.enabledLanes p0 7 false 4) [0] ∧
    NoTrap x0 (fun _ => 31) ∧ Opens (.redx { f3 with a := 0, b := 32, d := 0 }) s0 s1 xc pc0 ∧ UniReadable xc pc0 true [0] ∧
    (∀ h n, pc0.wait ≠ .redx h n) ∧ (s1.core 0).groups.find? (fun h => h.launch == xc.launch && h.image == 0 && h.members.getLsbD 0) = none ∧
    Machine.get xc.armed 0 = none ∧ xc.live = 1 ∧ ({ p0 with wait := .redx 3 0 } : Split).wait = .redx 3 0 ∧
    ((((sk (fun k => { k with groups := [grp 1] }) x0).core 0).group 1 0 3).bind fun e => e.result 0 0) = some (some 5) := by
  refine ⟨at0, by decide, lanes0 (by decide), ?_, opensc (by decide), ?_, ?_, ?_, ?_, ?_, ?_, ?_⟩
  all_goals first | (unfold NoTrap; decide +kernel) | (unfold UniReadable; decide +kernel) | (intro h n; simp [pc0, p0, Split.start, Split.clearLatches]) | decide +kernel

/-- An access of lane 0 to four bytes at 0x20040, and one to core SRAM. -/
def acc0 (pa : Nat) (l : List Byte) : Acc :=
  { lane := 0, va := pa, pa := pa, size := 4, key := 8192, type := 0, hs := false, data := indexed l, opnd := 1, cmp := 0, got := none }
/-- The operation 5 with that access, on a path. -/
def op5 (path : Nat) (k : OpKind) : Op :=
  { id := 5, path := path, kind := k, word := 0, scope := 1, acq := false, rel := false, accs := [acc0 0x20040 [1, 2, 3, 4]], done := false }
/-- The small warp with that operation alone. -/
def xo (path : Nat) (k : OpKind) : Warp := { x0 with ops := [op5 path k] }
theorem performs0 (path : Nat) (k : OpKind) (h : (sw (xo path k)).inOrder 0 (xo path k) (op5 path k) (acc0 0x20040 [1, 2, 3, 4]) = true) :
    Performs (sw (xo path k)) 0 0 (xo path k) (op5 path k) (acc0 0x20040 [1, 2, 3, 4]) :=
  ⟨warp_sw _, by simp [xo], by simp [xo], rfl, by simp [op5], by simp [op5], by simp [acc0], by simp [op5, acc0, Op.groupTurn], h⟩

/-- Loads, stores and atomics that may be performed, in core SRAM and in global memory; a push that fits its ring and a pop that waits. -/
theorem witness_MemoryRows :
    Performs (sw (xo 0 (.load 4 false))) 0 0 (xo 0 (.load 4 false)) (op5 0 (.load 4 false)) (acc0 0x20040 [1, 2, 3, 4]) ∧
    Performs (sw (xo 0 .store)) 0 0 (xo 0 .store) (op5 0 .store) (acc0 0x20040 [1, 2, 3, 4]) ∧
    Performs (sw (xo 0 (.atom 0 false))) 0 0 (xo 0 (.atom 0 false)) (op5 0 (.atom 0 false)) (acc0 0x20040 [1, 2, 3, 4]) ∧
    Memory.wf ((sw (xo 0 .store)).core 0).sram = true ∧ ((sw (xo 0 .store)).core 0).badWords = [] ∧
    Performs (sw (xo 1 (.load 4 false))) 0 0 (xo 1 (.load 4 false)) (op5 1 (.load 4 false)) (acc0 0x20040 [1, 2, 3, 4]) ∧
    Performs (sw (xo 1 (.red 0))) 0 0 (xo 1 (.red 0)) (op5 1 (.red 0)) (acc0 0x20040 [1, 2, 3, 4]) ∧
    ((sw (xo 1 .store)).load ((sw (xo 1 .store)).whoOf 0 (xo 1 .store)) 0 false 0x20040 4 none).isSome = true ∧
    ((sw (xo 1 .store)).store ((sw (xo 1 .store)).whoOf 0 (xo 1 .store)) 0 false 0x20040 (indexed [1, 2, 3, 4]) none).isSome = true ∧
    ((sw (xo 1 .store)).rmw ((sw (xo 1 .store)).whoOf 0 (xo 1 .store)) 0 false 0x20040 4 none (fun v => redFn 0 v 1)).isSome = true ∧
    (xo 0 (.push 2 1)).ops.find? (fun z => z.id == 5) = some (op5 0 (.push 2 1)) ∧
    ((sk (fun k => { k with ringWait := [(2, true, 0, 5)] }) (xo 0 (.push 2 1))).core 0).ringWait.find? (fun e => e.1 == 2 && e.2.1 == true) =
      some (2, true, 0, 5) ∧ ((s0.core 0).ring 2).length + (op5 0 (.push 2 1)).accs.length * 1 ≤ 4096 ∧
    ((s0.core 0).ring 2).length < (op5 0 (.pop 2 1)).accs.length * 1 := by
  refine ⟨performs0 _ _ ?_, performs0 _ _ ?_, performs0 _ _ ?_, ?_, ?_, performs0 _ _ ?_, performs0 _ _ ?_, ?_, ?_, ?_, ?_, ?_, ?_, ?_⟩ <;>
    decide +kernel

/-- No die's clock stands beyond 64 cycles in the small state (R16). -/
theorem early0 (d : Nat) (h : d < 8) : s0.timeOf d + 128 < 1000000 := by
  have : (s0.die d).cycles = 0 := by revert d; decide +kernel
  simp only [State.timeOf, this]
  omega

/-- A lease that has run out and one that has long to run; a message that may be applied; a TYPE 1 copy with a byte not there; a line of
region 2 with both sectors at the host; and a port that is up. -/
theorem witness_CoherenceRows : Machine.get ((sk (fun k => { k with leases := [(7, 0), (8, 1000000)] }) x0).core 0).leases 7 = some 0 ∧
    s0.timeOf 0 + 128 < 1000000 ∧
    ({ (s0.die 1) with inbox := [{ src := 0, stamp := 1 :: List.replicate 7 0, line := 9 }] } : Die).inbox.find?
      (fun z => z.src == 0 && ({ (s0.die 1) with inbox := [{ src := 0, stamp := 1 :: List.replicate 7 0, line := 9 }] } : Die).mayApply z) =
      some { src := 0, stamp := 1 :: List.replicate 7 0, line := 9 } ∧
    ([{ line := 9, part := none, hs := false, key := none, bytes := [(0, 1)], dirty := 1 }] : List Copy1).find? (fun e => e.line == 9 && (Machine.get e.bytes 5).isNone) =
      some { line := 9, part := none, hs := false, key := none, bytes := [(0, 1)], dirty := 1 } ∧
    region (128 * (2 ^ 42)) = 2 ∧ inAperture (128 * (2 ^ 42)) = false ∧ (s0.sectorsOf (2 ^ 42)).length = 2 ∧
    ((s0.die 0).ports.getD 0 (false, 0)).1 = true ∧ s0.populated 0x20040 = true ∧ inAperture 0x20040 = false ∧
    (s0.store (portWho 0) 2 false 0x20040 (indexed (toBytes 8 5)) none).isSome = true := by
  refine ⟨?_, early0 0 (by decide), ?_, ?_, ?_, ?_, ?_, ?_, ?_, ?_, ?_⟩ <;> decide +kernel

/-! ### Rows of slots and tasks -/

/-- The small state with core 1 as well. -/
def sc (k1 : Core) (f : Core → Core) (y : Warp) : State := (sk f y).setCore 1 k1
/-- The small slot with no warp, at a use. -/
def fs (u : SlotUse) (t : Option Task) : Slot :=
  { launch := 1, width := 16, wg := none, windex := 0, use := u, warp := none, area := 0, task := t }
/-- A partition 0 that has the first core's quarter. -/
def steal0 (a : Option (Option Closure)) : Steal := { slot := 2, pos := 0, asked := some 0, answer := a, bytes := 0, until_ := 0 }
/-- A closure with one input tile of four bytes at 0x20000. -/
def zt : Closure := { zc 0 with words := [0, 1, 1 + 2 ^ 10 + 2 ^ 21, 0, 0, 0, 0x20000] ++ List.replicate 25 0 }
/-- A STAGE macro 0 with the closure's ring space. -/
def kt (k : Core) : Core :=
  { k with modes := [2, 0, 0, 0], head := 128, deque := [zt], futures := [(0, fut0 .queued)]
           allots := [{ id := 9, off := 0, len := 128, freed := false, skipped := false, words := zt.words, launch := 1, tiles := [0], moved := [], fault := none }] }

/-- A tile's load that has reached a loader. -/
def rq : Request := { core := 0, allot := 9, tile := 0, pieces := [] }

/-- Whether the small warp's handle names entry 0 of a core, in a state. -/
def finds (s : State) (h : DWord) (core : Nat) (u : FutState) : Bool :=
  match s.named x0 h true true with
  | .ok (.entry c e v) => c == core && e == 0 && v.st == u
  | _ => false

/-- A group whose phase is done and one whose is not, with a warp that waits for it; JOINs on resolved, failed and running entries;
a WAITV whose line was written and one whose was not; an ended warp with and without operations; and slots that may be returned and
may not. -/
theorem witness_SlotRows :
    ((sk (fun k => { k with groups := [{ grp 0 with arrived := 1, results := [] }] }) x0).phaseDone 0 { grp 0 with arrived := 1, results := [] } = true) ∧
    ((sk (fun k => { k with groups := [{ grp 0 with results := [] }] }) x0).phaseDone 0 { grp 0 with results := [] } = false) ∧
    ({ x0 with a := some { p0 with wait := .phase 3 0 } } : Warp).split false = some { p0 with wait := .phase 3 0 } ∧
    x0.unheld false = true ∧ (∀ u ∈ [FutState.resolved, .cancelled, .failed],
      finds (sk (fun k => { k with futures := [(0, fut0 u)] }) x0) 1 0 u = true) ∧
    finds (sc { Core.reset with futures := [(0, fut0 .running)] } id x0) (2 ^ 23 + 4096 * 0 + 1) 1 .running = true ∧
    covers (s0.die 0).clock (List.replicate 8 0) = true ∧ s0.joinBefore 1 4 = false ∧
    (Machine.get s0.writes 5).getD 0 = 0 ∧ (Machine.get ({ s0 with writes := [(5, 3)] } : State).writes 5).getD 0 ≠ 0 ∧
    (sw { x0 with status := .ended }).warp 0 0 = some { x0 with status := .ended } ∧ (s0.core 0).batchesDone 0 = true ∧
    (s0.launch 1).map (·.errAt) = some none ∧ ((s0.slot 0 0).map (·.use)) = some .busy ∧ s0.mayReturn 0 1 = false ∧
    (s0.setCore 0 { Core.reset with slots := [(0, fs .free none)] }).mayReturn 0 1 = true := by
  refine ⟨?_, ?_, ?_, ?_, ?_, ?_, ?_, ?_, ?_, ?_, ?_, ?_, ?_, ?_, ?_, ?_⟩ <;> decide +kernel

/-- A free slot with a closure to pop; a thief that may steal, and one that asks core 0; an answer that brings a closure; a closure that
arrives; and one with a tile, with room for it and without. The loader and the storer of a tile, the start of a task, and a tenant. -/
theorem witness_DequeRows :
    (let s := sk (fun k => { k with slots := put k.slots 2 (fs .free none), deque := [zc 0] }) x0
     s.slot 0 2 = some (fs .free none) ∧ (s.core 0).mayPop 2 (fs .free none) = true ∧ (s.core 0).retire = false ∧ s.runsLaunch 1 = true ∧
      ((s.core 0).closures (s.tenantOf 1)).reverse.find? (fun e => e.launch == 1) = some (zc 0) ∧ tileCount (zc 0).words = 0 ∧
      s.maySteal 0 = true ∧ s.victims 0 ≠ [] ∧ (s.core 0).stealOf 2 = none) ∧
    (let s := sc { Core.reset with steals := [steal0 none], slots := [(2, fs .reserved none)] } id x0
     s.asking 0 = [(1, 2)] ∧ (s.core 1).stealOf 2 = some (steal0 none) ∧ s.slot 1 2 = some (fs .reserved none)) ∧
    (sk (fun k => { k with steals := [steal0 (some (some (zc 0)))] }) x0 |>.core 0).stealOf 2 = some (steal0 (some (some (zc 0)))) ∧
    (let s := sk (fun k => { k with arrivals := [(2, zc 0)], slots := put k.slots 2 (fs .reserved none), futures := [(0, fut0 .queued)] }) x0
     Machine.get (s.core 0).arrivals 2 = some (zc 0) ∧ s.slot 0 2 = some (fs .reserved none) ∧
      ((s.core (zc 0).core).fut (s.tenantOf 1) (zc 0).entry).st ≠ .cancelled) ∧
    (let s := sk (fun k => { k with arrivals := [(2, zc 0)], slots := put k.slots 2 (fs .reserved none), futures := [(0, fut0 .cancelled)] }) x0
     ((s.core (zc 0).core).fut (s.tenantOf 1) (zc 0).entry).st = .cancelled) ∧
    (let s := sk kt x0
     (s.core 0).aheadOf[0]? = some zt ∧ s.released 0 zt.due zt.stamped = true ∧ (s.allotSpace 0 zt.words 1).isSome = true ∧
      (s0.allotSpace 0 zt.words 1).isNone = true ∧ ((s.core 0).allotOf 9).isSome = true ∧ tileSize zt.words 0 = 4 ∧ tileAddr zt.words 0 = 0x20000 ∧
      (s.access (s.agentOf 0 1) [] .read false 0x20000 1).toOption.isSome = true ∧
      (s.load (s.agentOf 0 1) 0 false 0x20000 4 (keyOf 0x20000 (some 0))).isSome = true ∧ s.requestAt 0 9 0 = none ∧
      ((s.core 0).allotOf 9).map (fun z => (s.tilePieces (s.agentOf 0 1) z 0 false).toOption.isSome) = some true ∧
      ({ s with loaders := [(4, [rq])] } : State).requestAt 0 9 0 = some (4, rq) ∧ ({ s with loaders := [(4, [rq])] } : State).requests 4 = [rq] ∧ (∀ e ∈ (s.core 0).slots, e.2.task.bind (·.allot) ≠ some 9)) ∧
    (let s := sk (fun k => { k with slots := put k.slots 2 (fs .runnable (some Task.root)) }) x0
     s.slot 0 2 = some (fs .runnable (some Task.root)) ∧ s.released 0 [] [] = true ∧ s.released 0 [] [1, 0] = false) ∧
    (x0.dueWrites = [] ∧ x0.task.allot = none ∧ tileCount x0.task.words = 0 ∧ x0.inline = []) ∧ (s0.core 0).tenant ≠ 3 := by
  refine ⟨⟨?_, ?_, ?_, ?_, ?_, ?_, ?_, ?_, ?_⟩, ⟨?_, ?_, ?_⟩, ?_, ⟨?_, ?_, ?_⟩, ?_, ⟨?_, ?_, ?_, ?_, ?_, ?_, ?_, ?_, ?_, ?_⟩, ⟨?_, ?_, ?_⟩, ?_, ?_⟩
  all_goals decide +kernel

/-! ### Rows of the engines, the array and contexts -/

/-- A copy of four bytes from the small kernel's page to the data page, which warp 0 issued. -/
def eo : EngOp :=
  { id := 1, op := 0x50, queue := 0, launch := 1, part := 0, die := 0, root := 0x10000, warp := some (0, 0), fut := some (0, 0), pkt := none,
    dst := 0x40100000, src := 0x20000, ctl := 4, pitch := 0, members := [], nth := 0, st := .travelling, done := 0, chunk := 0, reads := [],
    writes := [], buf := [], source := [], cancel := false, fail := none, stamped := List.replicate 8 0 }
/-- A collective of core 0's warp with one other member. -/
def co (i : Nat) (u : EngSt) : EngOp := { eo with id := i, op := 0x52, queue := 512, st := u, members := [(0, 0), (1, 0)] }
/-- The small state with engine operations and places of queue 0; its access tables let everything through. -/
def se (o : List (Nat × EngOp)) (q : List Place) : State :=
  { s0 with engOps := o, engQueues := [(0, { places := q, done := 0 })], ctrl := memWrite s0.ctrl (tableOff 0) (List.replicate 64 0xFF) }

/-- A place of the array's queue: a row of an MMA through selector 5. -/
def row0 : Row := { pos := 0, member := 0, lane := 0, sel := 5, index := 0, a := List.replicate 64 0, aux := [], view := ([0], 0) }
def mo (op : Nat) (b : DWord) : MatOp :=
  { id := 5, op := op, word := 0, a := 0, b := b, c := 0, rows := [row0], slots := [0], view := ([0], 0), at_ := 0 }
/-- Core 0 with a matrix operation and a hand. -/
def km (o : List MatOp) (hand : List (Nat × Nat)) (k : Core) : Core := { k with matrix := { Matrix.clear with owner := some 1, queue := o, hand := hand } }
/-- The small warp at the rendezvous latch, alone and as one of a gang of two. -/
def xg (n : Nat) : Warp := { x0 with gang := BitVec.ofNat 64 (n * 2 ^ 36 + 64), a := some { p0 with wait := .gang 4 true 0 0 0 0, buf := [(p0.pc, 0)] } }

/-- Commands on the way that are admitted, refused, and find a full queue; a copy that runs, starts a chunk, and has ended; a
collective with a member that has ended elsewhere. A row whose selector the hand holds, one whose it does not, a stall with and
without its owner, and an array that may be cleared and may not. Members of a gang that have all arrived, and that have not. -/
theorem witness_EngineAndArrayRows :
    ((se [(1, eo)] []).admits 0 0 ((se [(1, eo)] []).issuerMid eo) 2 eo.dst = true ∧ ({ s0 with engOps := [(1, eo)] } : State).admits 0 0 (s0.issuerMid eo) 2 eo.dst = false ∧
      (∀ e ∈ (se [(1, eo)] []).engOps, e.2.st = .travelling → e.2.warp = eo.warp → e.2.queue = eo.queue → 1 ≤ e.1) ∧
      64 ≤ ((se [(1, eo)] (List.replicate 64 (.join 9))).engQueue 0).places.length ∧ ((se [(1, eo)] []).engQueue 0).places.length < 64) ∧
    (let o := { eo with st := .queued }
     let s := se [(1, o)] [.cmd 1]
     s.engRuns o = true ∧ o.done < o.total ∧ (s.engPieces (s.engWho o) .read o.src (linePieces o.src 4)).toOption.isSome = true ∧
      (s.engPieces (s.engWho o) .write o.dst (linePieces o.dst 4)).toOption.isSome = true ∧ s.applied o.stamped = true ∧
      (s.engPieces (s.engWho o) .write o.src (linePieces o.src 4)).toOption.isSome = false ∧ { o with done := 4, st := .running }.total ≤ 4 ∧
      ({ s with engOps := [(1, { o with done := 4, st := .running })] } : State).engRuns { o with done := 4, st := .running } = true) ∧
    (∃ e : EngOp, ({ s0 with engOps := [(1, co 1 .queued), (2, { co 2 (.gone false) with part := 0, die := 0, warp := some (1, 0) })] } : State).peers (co 1 .queued) ≠ [] ∧
      e = co 1 .queued) ∧
    (let s := sk (km [mo 0 0] [(5, 1)]) x0
     (s.core 0).matrix.queue = [mo 0 0] ∧ s.matReady 0 (mo 0 0) = true ∧ Machine.get (s.core 0).matrix.hand 5 = some 1 ∧ (mo 0 0).at_ < 64 ∧
      (s.core 0).matrix.stall.stalled = false ∧ s.ownerLives 0 0 = true ∧ s.ownerLives 0 1 = false ∧ (placeOf ([0], 0) 0).isSome = true) ∧
    (({ sk (km [mo 0 0] []) x0 with launches := put s0.launches 1 lh } : State).hasTrap 0 0 = true ∧
      Machine.get ((sk (km [mo 0 0] []) x0).core 0).matrix.hand 5 = none ∧ (mo 11 8).b.toNat = 4 * 2) ∧
    ((s0.core 0).slots ≠ [] ∧ ((s0.setCore 0 (km [] [] Core.reset)).core 0).slots = [] ∧
      ((s0.setCore 0 (km [] [] Core.reset)).core 0).matrix.owner = some 1) ∧
    (let s := sw (xg 0)
     s.latched 0 0 = some cur0 ∧ (xg 0).gangSlots 0 = [0] ∧ s.present 0 0 = true ∧ s.present 0 1 = false ∧ (s.membersOf [cur0]).isSome = true ∧
      (xg 2).gangSlots 0 = [0, 1] ∧ (xg 2).gangSlots 0 = [1, 0].reverse ∧ (∃ m ms, s.membersOf [cur0] = some (m :: ms) ∧ m.g = true)) := by
  refine ⟨⟨?_, ?_, ?_, ?_, ?_⟩, ⟨?_, ?_, ?_, ?_, ?_, ?_, ?_, ?_⟩, ⟨_, ?_, rfl⟩, ⟨?_, ?_, ?_, ?_, ?_, ?_, ?_, ?_⟩, ⟨?_, ?_, ?_⟩, ⟨?_, ?_, ?_⟩,
    ⟨?_, ?_, ?_, ?_, ?_, ?_, ?_, ⟨_, _, rfl, ?_⟩⟩⟩
  all_goals decide +kernel

/-- The small warp blocked at a WAITV, with causes pending and a debug stop. -/
def xb (req : List Nat) (d : Debug) : Warp := { x0 with a := some { p0 with wait := .waitv 5 0 }, req := req, debug := d }
theorem boundary0 (s : State) (req : List Nat) (d : Debug) (h : s.warp 0 0 = some (xb req d)) :
    Boundary s s 0 0 (xb req d) (xb req d) { p0 with wait := .waitv 5 0 } :=
  ⟨h, ⟨{ p0 with wait := .waitv 5 0 }, rfl, rfl⟩, h, rfl, rfl, rfl, rfl, rfl⟩

/-- How an access of a context ends. -/
def sync {α : Type} : Sync α → Nat
  | .cause _ t => t.cause
  | .wait => 1
  | .done _ _ => 0
/-- The small warp frozen by a debug stop, with the command of a register DBGCTL. -/
def xz : Warp := { (xb [] (.asked false)).freeze 0 with debug := .stopped false }
def fz : Frozen := xz.frozen.getD z0
/-- The root warp of the small launch parked. -/
def park (core : Nat) : Parked := { launch := 1, wg := some 0, windex := 0, core := core, slot := 0, area := 0x40010000, base := 0x40000000, out := false, warp := { xz with debug := .none, status := .parked } }
def sp (core : Nat) (k : Core → Core) : State :=
  { (sw xz) with
    parked := [(3, park core)]
    cores := put (sw xz).cores core (k { placedCore with slots := [(0, { (fs .parked none) with wg := some 0, area := 0x40000000 })] }) }

/-- The small workgroup lifted from core 1, and the state in which it is. -/
def lif : Lifted := { launch := 1, index := 0, core := 1, bytes := [], groups := [], slots := [(0, 0)], xpubs := [] }
def sl : State :=
  { (sw xz) with parked := [(3, { park 1 with out := true })], lifted := [lif], cores := put (sw xz).cores 1 Core.reset }

/-- Pending causes with a trap entry and without; a stop that may be taken; a context that fails its checks; and a parked warp on its slot
and one that was lifted. -/
theorem witness_ContextRows :
    Boundary (sw (xb [0x301] .none)) (sw (xb [0x301] .none)) 0 0 (xb [0x301] .none) (xb [0x301] .none) { p0 with wait := .waitv 5 0 } ∧
    (s0.launch 1).bind Launch.trapEntry = none ∧ (({ s0 with launches := put s0.launches 1 lh } : State).launch 1).bind Launch.trapEntry = some 0x20100 ∧
    (∀ o ∈ (s0.core 0).matrix.queue, 0 ∉ o.slots) ∧ (s0.core 0).matrix.stall.taken = true ∧
    (∃ g ∈ (s0.core 0).wgs, g.launch = 1 ∧ g.index = 0 ∧ g.rings = false ∧ ∀ n ∈ g.xpubs, 2 ≤ n) ∧
    Boundary (sw (xb [] (.asked false))) (sw (xb [] (.asked false))) 0 0 (xb [] (.asked false)) (xb [] (.asked false)) { p0 with wait := .waitv 5 0 } ∧
    (sw (xb [] (.asked false))).drained cur0 (xb [] (.asked false)) = true ∧
    ((sw xz).warp 0 0 = some xz ∧ xz.frozen = some fz ∧
      sync ((sw xz).readCtx cur0 xz fz ((sw xz).ownArea cur0)) = 0x304 ∧ ctlField 0x20000 2 16 = 2 ∧ ctlField 0x20000 6 18 = 0) ∧
    (let s := sp 0 id
     Machine.get s.parked 3 = some (park 0) ∧ s.merges 0 = false ∧ s.applied (park 0).warp.stamped = true ∧ s.partOf 0 = some 0) ∧
    (let s := sl
     s.caughtUp 0 0 = true ∧ s.lifted.find? (fun r => r.launch == 1 && r.index == 0) = some lif ∧ s.mayMove lif 2 = true ∧
      s.accepts 2 = true ∧ s.partOf 2 = some 0 ∧ s.fits 2 1 placedLaunch 1 = true ∧ s.phasesHold 1 1 2 = true ∧
      Machine.get s.parked 3 = some { park 1 with out := true }) := by
  refine ⟨boundary0 _ _ _ (warp_sw _), ?_, ?_, ?_, ?_, ?_, boundary0 _ _ _ (warp_sw _), ?_, ⟨?_, ?_, ?_, ?_, ?_⟩, ⟨?_, ?_, ?_, ?_⟩,
    ⟨?_, ?_, ?_, ?_, ?_, ?_, ?_, ?_⟩⟩
  all_goals decide +kernel

/-! ### Queues, packets and launches -/

/-- Sixty-four bytes, of which some are not 0. -/
def bytes64 (l : List (Nat × Nat)) : List Byte := l.foldl (fun b e => b.set e.1 (BitVec.ofNat 8 e.2)) (List.replicate 64 0)
/-- A packet of bytes that has been fetched. -/
def pk (b : List Byte) : Pkt :=
  { num := 0, bytes := b, started := false, complete := false, discarded := false, launch := none, eng := none, version := [], params := 0, inner := [], halted := none, mute := false }
/-- Queue 7 of partition 0, with packets; its ring stands in the data page. -/
def qo (l : List Pkt) : Queue :=
  { die := 0, part := 0, vf := 0, slot := 0, root := 0x10000, pool := 0x40000000, poolSize := 1, ring := 0x40200000, size := 4, rptr := l.length, done := 0,
    stopped := false, status := 0, pkts := l, launches := [], notice := none, flush := none, dying := false, stamped := List.replicate 8 0 }
/-- The small state with that queue, its virtual function mapped and WPTR 1; access tables let everything through. -/
def sq (q : Queue) : State :=
  { s0 with
    queues := [(7, q)], vfmap := [(0, 0x8000000000000000)], mem := memWrite s0.mem 0x48 [1]
    ctrl := memWrite (memWrite s0.ctrl (tableOff 17 + 0xB0 / 4) [0xFF]) (tableOff 32 + 0xC0 / 4) [0xFF] }
/-- That state with one port of die 0 up. -/
def s1p (q : Queue) : State := (sq q).setDie 0 { (sq q).die 0 with ports := [(true, 0), (false, 0), (false, 0), (false, 0)] }
def ua (b : List Byte) : PktAt := { num := 0, idx := none, bytes := b, ok := true }

theorem next0 {t : Nat} {b : List Byte} (h : (qo [pk b]).next = some (ua b) ∧ t < 9 ∧ numAt b 0 8 % 256 = t ∧ (sq (qo [pk b])).pktOk 0 false b = true) :
    Next (sq (qo [pk b])) 7 (qo [pk b]) (ua b) t :=
  ⟨by simp [sq, Machine.get], rfl, h.1, rfl, .inl rfl, h.2.2.1, h.2.2.2⟩

/-- A doorbell that arrives and one that does not; a page with WPTR 1 and a packet to fetch; a queue whose WPTR is too far; notices
of a SKIP and a FLUSH; a packet that is complete, one that is discarded; QUEUE_CREATE of a free and of a taken number. -/
theorem witness_QueueRows :
    ((sq (qo [])).queues.find? (fun e => e.2.vf == 0 && e.2.slot == (0 : DWord).toNat % 64) = some (7, qo []) ∧
      Machine.get (sq (qo [])).queues 7 = some (qo []) ∧ ((s1p (qo [])).portsUp 0 = [0] ∧
        ((s1p (qo [])).doorbell 0 0).2 = true ∧ ((s1p (qo [])).doorbell 1 0).2 = false ∧ (s1p (qo [])).bound 1 = false ∧
        (sq (qo [])).portsUp 8 = []) ∧
      sync ((sq (qo [])).pageWord (qo []) 0x08) = 0 ∧ sync ((sq (qo [])).pageWord (qo []) 0x28) = 0 ∧ (2 : Nat).testBit 1 = true ∧ (1 : Nat).testBit 0 = true) ∧
    (1 = (qo []).rptr + 1 ∧ (1 + 2 ^ 64 - (qo []).done) % 2 ^ 64 ≤ 2 ^ 4 ∧ ((sq (qo [])).part 0).quiesce = false ∧
      sync ((sq (qo [])).cpRead ((sq (qo [])).queueWho (qo [])) 0x40200000 64) = 0 ∧
      sync ((sq (qo [])).cpRead ((sq (qo [])).queueWho (qo [])) 0x80200000 64) = 0x101 ∧ 2 ^ 4 < (17 + 2 ^ 64 - 0) % 2 ^ 64) ∧
    (({ qo [] with notice := some (false, 1) } : Queue).notice = some (false, 1) ∧ ({ qo [] with flush := some (1, 0) } : Queue).pkts = [] ∧
      ({ pk (bytes64 []) with complete := true } : Pkt).complete = true ∧ numAt (bytes64 [(1, 0x45)]) 0 8 / 2 ^ 8 % 2 ^ 3 = 5 ∧
      (numAt (bytes64 [(1, 0x45)]) 0 8).testBit 14 = true ∧ s0.packetEnded { pk (bytes64 []) with discarded := true } = true) ∧
    (({ qo [{ pk (bytes64 []) with halted := some (0, 5) }] with stopped := true } : Queue).pkts.any
        (fun p => decide (p.num % 2 ^ 32 = (qo []).status.toNat / 2 ^ 32)) = true ∧
      (qo []).pkts.any (fun p => decide (p.num % 2 ^ 32 = (qo []).status.toNat / 2 ^ 32)) = false ∧
      (qo []).rptr % 2 ^ 32 = (qo []).status.toNat / 2 ^ 32 ∧ ({ pk (bytes64 []) with mute := true } : Pkt).mute = true) ∧
    (Machine.get s0.queues 7 = none ∧ (s0.die 0).up = true ∧ (4 ≤ 4 ∧ 4 ≤ 15) ∧ (s0.queues.all fun e => e.2.vf != 0) = true ∧
      ([(0, 0), (1, 0)] : List (Nat × Nat)).length ≠ 1) := by
  refine ⟨⟨?_, ?_, ?_, ?_, ?_, ?_, ?_⟩, ⟨?_, ?_, ?_, ?_, ?_, ?_⟩, ⟨?_, ?_, ?_, ?_, ?_, ?_⟩, ?_, ⟨?_, ?_, ?_, ?_, ?_⟩⟩ <;> decide +kernel

/-- A buffer of an INDIRECT that is running, whose next packet has those bytes. -/
def qb (b : List Byte) : Queue :=
  qo [{ pk (bytes64 [(0, 7), (11, 0x40), (16, 1)]) with
    started := true, inner := [{ idx := 0, bytes := b, started := false, complete := false, reported := false, launch := none, eng := none }] }]

/-- Packets of TYPE 7 and 8 in a buffer, which stop the queue with code 6, and of TYPE 9, which is invalid (R361, R372). -/
theorem witness_PacketOrder : ∀ t ∈ [7, 8, 9], ∃ u, (qb (bytes64 [(0, t)])).next = some u ∧ u.idx ≠ none ∧ u.ok = true ∧
    numAt u.bytes 0 8 % 256 = t ∧ (sq (qb (bytes64 [(0, t)]))).pktOk 0 false u.bytes = decide (t = 8) ∧
    (qb (bytes64 [(0, t)])).serves = true ∧ (qb (bytes64 [(0, t)])).waiting 6 = none := by
  intro t h
  refine ⟨{ num := 0, idx := some 0, bytes := bytes64 [(0, t)], ok := true }, ?_⟩
  revert t; decide +kernel

/-- Packets of every type that start next: NOP, LAUNCH, COPY (of bytes that do not overlap), COLL, WAITV, SIGNAL, ANDBAR, INDIRECT
and GRAPH; a queue with an invalid packet; an indirect buffer to fetch and a graph that runs. -/
theorem witness_PacketRows :
    Next (sq (qo [pk (bytes64 [])])) 7 (qo [pk (bytes64 [])]) (ua (bytes64 [])) 0 ∧
    (let b := bytes64 [(0, 2), (10, 0x10), (11, 0x40), (17, 1), (18, 0x10), (19, 0x40), (24, 4)]
     Next (sq (qo [pk b])) 7 (qo [pk b]) (ua b) 2) ∧
    (let b := bytes64 [(0, 3)]
     Next (sq (qo [pk b])) 7 (qo [pk b]) (ua b) 3 ∧ ((sq (qo [pk b])).collCause 0 0 0 0 0).toOption.isSome = false) ∧
    (let b := bytes64 [(0, 4), (11, 0x40)]
     let s := sq (qo [pk b])
     Next s 7 (qo [pk b]) (ua b) 4 ∧ (qo [pk b]).waiting 4 = none ∧ (s.access (s.queueWho (qo [])) [] .read true 0x40000000 8).toOption.isSome = true ∧
      (s.load (s.queueWho (qo [])) 2 false 0x40000000 8 (keyOf 0x40000000 (some 0))).isSome = true) ∧
    (let b := bytes64 [(0, 5), (11, 0x40)]
     Next (sq (qo [pk b])) 7 (qo [pk b]) (ua b) 5 ∧ (sq (qo [pk b])).applied ((sq (qo [pk b])).queueStamps (qo [pk b]) 7 0) = true) ∧
    (let b := bytes64 [(0, 6), (14, 0x38), (15, 0x80)]
     Next (sq (qo [pk b])) 7 (qo [pk b]) (ua b) 6 ∧ (qo [pk b]).waiting 6 = none) ∧
    (let b := bytes64 [(0, 7), (11, 0x40), (16, 3)]
     Next (sq (qo [pk b])) 7 (qo [pk b]) (ua b) 7 ∧ (qo [pk b]).indirect = none ∧
      (qo [{ pk b with started := true }]).indirect = some { pk b with started := true } ∧ ({ pk b with started := true } : Pkt).mayFetch = true) ∧
    (let b := bytes64 [(0, 8), (8, 1), (19, 0x40), (24, 128)]
     Next (sq (qo [pk b])) 7 (qo [pk b]) (ua b) 8 ∧ numAt b 8 1 = 1 ∧
      sync ((sq (qo [pk b])).cpRead ((sq (qo [pk b])).queueWho (qo [])) 0x40000000 64) = 0) ∧
    (let b := bytes64 [(0, 8)]
     Next (sq (qo [pk b])) 7 (qo [pk b]) (ua b) 8 ∧ numAt b 8 1 = 0 ∧ (pk b).version = [] ∧ numAt b 24 4 = 0) ∧
    (let b := bytes64 [(0, 9)]
     (qo [pk b]).next = some (ua b) ∧ (sq (qo [pk b])).pktOk 0 false b = false ∧ IsPacketRow 7 (.andbar 7) 6 ∧ (qo [pk b]).serves = true) := by
  refine ⟨next0 ?_, next0 ?_, ⟨next0 ?_, ?_⟩, ⟨next0 ?_, ?_, ?_, ?_⟩, ⟨next0 ?_, ?_⟩, ⟨next0 ?_, ?_⟩, ⟨next0 ?_, ?_, ?_, ?_⟩, ⟨next0 ?_, ?_, ?_⟩,
    ⟨next0 ?_, ?_, ?_, ?_⟩, ⟨?_, ?_, ?_, ?_⟩⟩
  case refine_26 => simp [IsPacketRow]
  all_goals decide +kernel

/-- A LAUNCH of a grid of one workgroup, with no predecessor and with one that is none; an image with a good header and one without; a
launch that may be placed and one all of whose workgroups have exited. -/
theorem witness_LaunchRows :
    (let b := bytes64 [(0, 1), (10, 2), (16, 1), (20, 1), (24, 1)]
     let s := sq (qo [pk b])
     Next s 7 (qo [pk b]) (ua b) 1 ∧ numAt b 0 8 / 2 ^ 20 % 2 ^ 4 = 0 ∧ (s.serveLaunch (qo [pk b]) 7 (ua b) 0).isSome = true ∧
      (s.part 0).en = true ∧ s.merges 0 = false ∧ s.applied (s.die 0).clock = true ∧ sync (s.readImage (s.queueWho (qo [pk b])) 0x20000) = 0) ∧
    (let b := bytes64 [(0, 1), (2, 0x11), (10, 2), (16, 1), (20, 1), (24, 1)]
     Next (sq (qo [pk b])) 7 (qo [pk b]) (ua b) 1 ∧ numAt b 0 8 / 2 ^ 20 % 2 ^ 4 = 1 ∧ (qo [pk b]).launches[0]? = none) ∧
    (parseKernel (bytes64 [(0, 0x56), (1, 0x4B), (2, 0x48), (3, 0x31), (4, 1), (7, 1)]) [] []).isSome = true ∧
    (parseKernel (bytes64 []) [] []).isSome = false ∧
    (let e := { placedLaunch with placed := 0, poolSize := 4 }
     let s : State := { s0 with launches := [(1, e)] }
     s.launch 1 = some e ∧ s.placeAt 1 e = some 1 ∧ s.served 1 e = true ∧ covers (s.die 0).clock e.due = true ∧
      ((s.core 1).placeSlots 1 16)[0]? = some 0 ∧ s.poolHolds 1 1 e 1 = true) ∧
    (s0.placeAt 1 placedLaunch = none ∧ (s0.setCore 0 Core.reset).launchGone 1 = true ∧ placedLaunch.exited ≠ 1 ∧ ({ placedLaunch with exited := 1 } : Launch).exited = 1) := by
  refine ⟨⟨next0 ?_, ?_, ?_, ?_, ?_, ?_, ?_⟩, ⟨next0 ?_, ?_, ?_⟩, ?_, ?_, ⟨?_, ?_, ?_, ?_, ?_, ?_⟩, ⟨?_, ?_, ?_, ?_⟩⟩ <;> decide +kernel

/-! ### Registers and the platform -/

/-- Quarters that are free and that are taken; addresses at which a firmware level may write; a window that is off; a refused request and an
admitted one; a shoot-down that is to start and one in progress; an energy window that is over. -/
theorem witness_RegisterRows :
    (0 < s0.dies.length ∧ (∀ i < 32, (0x200000000 : DWord).getLsbD (32 + i) = true → s0.withheld i = false) ∧
      (∃ i < 32, (0x100000000 : DWord).getLsbD (32 + i) = true ∧ ∃ e ∈ s0.parts, e.1 ≠ 1 ∧ e.2.en = true ∧ e.2.quarters.getLsbD i = true)) ∧
    (s0.attach = [] ∧ ctlField 0xA000000000000001 2 61 = 1 ∧ ctlField 0xA000000000000001 18 0 = 1 ∧ ctlField 0 2 61 = 0) ∧
    (ctrlReg 0x1F0000080000010 = .enbudget 0 ∧ 0x1F0000080000010 / 2 ^ 52 % 2 ^ 5 = 31 ∧ 0x1F0000080000010 % 8 = 0 ∧
      0x1F0000080000010 / 2 ^ 35 % 2 ^ 17 = 0) ∧
    ctrlReg 0x1F0000040020000 = .table 0 0x20000 ∧
    (((s0.part 0).windowRegs 0).length = 5 ∧ (((s0.part 0).windowRegs 0).getD 0 0).getLsbD 63 = false) ∧
    (s0.admits 0 16 0xA0 0 0 = false ∧ (sq (qo [])).admits 0 17 0xB0 2 0 = true) ∧
    ((s0.part 0).busy = false ∧ ({ s0.part 0 with busy := true } : Part).busy = true ∧ s0.shootDue 0 = false) ∧
    (∃ s : State, (s.part 0).window < s.timeOf (s.proxyDie 0) / 300000) := by
  refine ⟨⟨?_, ?_, ?_⟩, ⟨?_, ?_, ?_, ?_⟩, ⟨?_, ?_, ?_, ?_⟩, ?_, ⟨?_, ?_⟩, ⟨?_, ?_⟩, ⟨?_, ?_, ?_⟩,
    ⟨{ s0 with dies := [{ s0.die 0 with cycles := 300000 }] }, ?_⟩⟩
  case refine_20 =>
    have h : ({ s0 with dies := [{ s0.die 0 with cycles := 300000 }] } : State).proxyDie 0 = 0 := by decide +kernel
    have w : (({ s0 with dies := [{ s0.die 0 with cycles := 300000 }] } : State).part 0).window = 0 := by decide +kernel
    rw [h, w]
    simp only [State.timeOf, State.die]
    simp
  all_goals decide +kernel

/-- A core that may retire, one whose die has no spare, and one that retires; a MERGE of two partitions that are enabled, a bad one and a
busy one; a bring-up that has not happened and one that has; an idle and a busy host page; a port, a die that is up and one that is not. -/
theorem witness_PlatformRows :
    ((s0.core 0).retire = false ∧ (s0.die 0).spares ≠ 0 ∧ s0.partOf 0 = some 0 ∧ s0.merges 0 = false ∧ s0.retires 0 = false ∧
      (s0.setCore 0 { placedCore with retire := true }).retires 0 = true ∧ (∃ z ∈ placedCore.slots, z.2.warp ≠ none) ∧
      (s0.core 1).slots = [] ∧ ({ s0.die 0 with spares := 0 } : Die).spares = 0) ∧
    (let s : State := { s0 with parts := [(0, s0.part 0), (1, { s0.part 0 with quarters := 2 })] }
     (s.part 0).en = true ∧ (s.part 1).en = true ∧ (s.part 0).merging = none ∧ ctlField (1 * 2 ^ 54) 5 54 = 1 ∧ s.retires 1 = false ∧
      (s.part 0).windows = [] ∧ s.busyQueues 0 1 = []) ∧
    (State.reset.host.bootstat.getLsbD 63 = true ∧ ({ State.reset.host with bootstat := 0 } : HostPage).bootstat.getLsbD 63 = false) ∧
    ((s0.die 0).up = true ∧ s0.host.busy = false ∧ s0.reportAt 0 = false ∧
      ({ s0 with attach := [(0, 0xC000000000000001)] } : State).reportAt (2 ^ 49) = true ∧ 2 ^ 49 % 4096 = 0) ∧
    ((s0.die 0).ports.length = 4 ∧ 0 / 4 < s0.dies.length ∧ ({ s0.die 0 with up := false } : Die).up = false) := by
  decide +kernel

/-! ### The whole machine -/

/-- The state after a fetch. -/
def after (s : State) (pc : VA) : State :=
  match s.fetch cur0 pc with
  | .word t _ => t
  | _ => s
theorem fetch_word {s : State} {pc : VA} {v : Word} (h : (match s.fetch cur0 pc with | .word _ u => u == v | _ => false) = true) :
    s.fetch cur0 pc = .word (after s pc) v := by
  unfold after
  split at h
  · rename_i e
    rw [e]
    simp_all
  · cases h

/-- The small state with a word at its program counter that has no row. -/
def sbad : State := { s0 with mem := memWrite s0.mem 0x20040 (toBytes 4 0x3F700000) }

/-- The small state, whose turn issues a NOP, and one whose word is no instruction; a warp that does not run, and an event's turn. -/
theorem witness_StepRunsTheDecodedInstruction :
    (Ready s0 cur0 (.nop 0) (after s0 0x20040) [(0x20040, 0)] ∧ (after s0 0x20040).deliver cur0 = none) ∧
    Malformed sbad cur0 0x3F700000 (0x041, 0) (after sbad 0x20040) ∧
    (sw { x0 with status := .failed }).runs cur0 = false ∧ ({ s0 with turn := .event (.pktNop 7) } : State).turn = .event (.pktNop 7) ∧
    encodeHead (.pktNop 7) = none ∧ encodeHead (.eret f3) ≠ none ∧ s0.fairTo cur0 = true := by
  refine ⟨⟨⟨?_, ?_, .inr ?_, ⟨x0, p0, after s0 0x20040, 0, .nop 0, [], warp0, split0, fetch_word ?_, ?_, ?_, rfl, rfl, rfl,
      fun w h => by simpa [p0, Split.start] using h.symm, fun n w h => by simp at h⟩⟩, ?_⟩,
    ⟨?_, ?_, .inr ?_, ⟨x0, p0, ?_, split0, fetch_word ?_, .inl ⟨?_, rfl⟩⟩⟩, ?_, rfl, ?_, ?_, ?_⟩
  all_goals decide +kernel

/-- A word in memory, a word in the split's buffer, one in the loop buffer, an address that is not mapped, and a warp that waits for an
acquire. -/
theorem witness_FetchedWords : s0.warp 0 0 = some x0 ∧ x0.split false = some p0 ∧ x0.inLoop 0x20040 = false ∧ Machine.get p0.buf 0x20040 = none ∧
    x0.fenced s0.serial = false ∧ (∀ o ∈ x0.ops, o.acq = true → o.performed = true) ∧ x0.guarded 2 0x20040 4 = true ∧ leaf0.toOption.isSome = true ∧
    ((leaf0.toOption.bind fun l => s0.fetchCause 0 (s0.whoOf 0 x0) l).isNone = true) ∧ x0.writing 0x20040 = false ∧
    (s0.load (s0.whoOf 0 x0) 0 false 0x20040 4 (keyOf 0x20040 (some 0))).isSome = true ∧
    (s0.translate (s0.whoOf 0 x0) [] 0x80000000).toOption.isSome = false ∧
    ({ p0 with buf := [(0x20040, 7)] } : Split).buf = [(0x20040, 7)] ∧
    ({ x0 with loops := [lvl 2 0x20040 0x20044], loopBuf := [(0x20040, 7)] } : Warp).inLoop 0x20040 = true := by
  decide +kernel

theorem witness_SourceCodes : x0.lanes[3]? = some (Lane.start 3) ∧ 3 < 4 := by decide +kernel
theorem witness_DecodeOfEncode : (Instr.iadd { f3 with d := 16 }).wellFormed e0 = true ∧ encodeHead (.iadd { f3 with d := 16 }) ≠ none ∧
    (∀ f l0 l1, Instr.iadd { f3 with d := 16 } = .uldk f l0 l1 → f.x = false → l1 = 0) := by
  refine ⟨by decide +kernel, by decide +kernel, fun f l0 l1 h => by cases h⟩
theorem witness_EncodeOfDecode : 0x127000A9 < 2 ^ 32 ∧ (decodeHead 0x127000A9).isSome = true := by decide +kernel

/-- The cores' scratchpads are canonical where those of the listed cores are. -/
theorem srams {s : State} (h : (s.cores.all fun e => Memory.wf e.2.sram) = true) (c : Nat) : Memory.wf (s.core c).sram = true := by
  unfold State.core
  cases e : Machine.get s.cores c with
  | none => decide
  | some k => exact List.all_eq_true.1 h _ (get_mem e)

/-- Memories in canonical form, at reset and in the small state, and a step of it that ends in a next state. -/
theorem witness_StepsKeepMemoriesCanonical : Canonical s0 ∧ Canonical State.reset ∧
    (match step s0 with | .next _ => true | _ => false) = true := by
  refine ⟨⟨by decide +kernel, by decide +kernel, srams (by decide +kernel)⟩,
    ⟨by decide +kernel, by decide +kernel, srams (by decide +kernel)⟩, by decide +kernel⟩
theorem witness_FrameOfTheIssuingWarp : s0.warp cur0.core cur0.slot = some x0 := warp0

/-! ### Published functions (log entries 15, 18): the vectors are those of FIPS 180-4, FIPS 197 and IEEE 1619 -/

theorem test_sha512_abc : (sha512 [0x61, 0x62, 0x63]).take 4 = [0xdd, 0xaf, 0x35, 0xa1] := by decide +kernel

theorem test_aes256_block :
    (aesEnc (aesKeys (List.range 32)) ((List.range 16).map (17 * ·))).take 4 = [0x8e, 0xa2, 0xb7, 0xca] := by
  decide +kernel

theorem test_xts_unit_255 :
    (xts false (BitVec.ofNat 512 (ofBytes (bytesBe 64 0x27182818284590452353602874713526624977572470936999595749669676273141592653589793238462643383279502884197169399375105820974944592)))
      0xff [0x00, 0x01, 0x02, 0x03, 0x04, 0x05, 0x06, 0x07, 0x08, 0x09, 0x0a, 0x0b, 0x0c, 0x0d, 0x0e, 0x0f]).take 4 =
      [0x1c, 0x3b, 0x3a, 0x10] := by decide +kernel

end Sys2Proof.Tests
end

section
/-! The task queries DQLEN and TSELF (R202, R203): the write-back of a uniform result, the decode checks of a U3 word whose sources
are fixed at 0, and O29. -/

namespace Sys2Proof.Proofs

open Sys2Proof Sys2Proof.Machine Sys2Proof.Claims Sys2Proof.Laws

/-! ### The write-back of a uniform result (R100, R105) -/

/-- The cell that a uniform result keeps where its guard is false (R100): m0 while it is valid for a result that only latches, else
k0 or the named register. -/
def oldUni (x : Warp) (p : Split) (nw : Bool) (d : Nat) : Cell64 :=
  if nw then (if (p.m.getD 0 LatchM.empty).valid then (p.m.getD 0 LatchM.empty).cell else Cell64.of 0)
  else if d = 0 then x.k.getD 0 (Cell64.of 0) else x.s.getD (d - 16) (Cell64.of 0)

/-- The cell that a uniform word writes back (R100). -/
def newUni (x : Warp) (p : Split) (nw : Bool) (d : Nat) (g : Bool) (res : DWord) : Cell64 :=
  if g then Cell64.of res else oldUni x p nw d

/-- A write-back changes k, s and the mark of a handler's changes, and pushes the split's uniform latches. -/
theorem writeUni_eq (x : Warp) (b : Bool) (p : Split) (nw : Bool) (d : Nat) (g : Bool) (res : DWord) :
    ∃ h : Bool, x.writeUni b p nw d g res =
      { x with
        k := if !nw && d == 0 then newUni x p nw d g res :: x.k.take 15 else x.k
        s := if !nw && d != 0 then x.s.set (d - 16) (newUni x p nw d g res) else x.s
        dirty := h }.setSplit b (some { p with m := { valid := true, cell := newUni x p nw d g res } :: p.m.take 3 }) := by
  cases nw with
  | true => exact ⟨x.dirty, rfl⟩
  | false =>
    by_cases hd : d = 0
    · subst hd
      exact ⟨x.dirty, rfl⟩
    · refine ⟨x.dirty || (g && x.touches d), ?_⟩
      simp [Warp.writeUni, shiftM, newUni, oldUni, hd]

/-- A word that ends with the write-back of a uniform result alone gives that result. -/
theorem uniResult_gives {i : Instr} {s : State} {x : Warp} {p : Split} {nw : Bool} {d : Nat} {g : Bool} {res : DWord}
    (he : exec i s = .next (s.putWarp s.cur (x.uniResult s.cur.b p nw d g res))) : GivesUni i s x p nw d g res 4 := by
  obtain ⟨h, hw⟩ := writeUni_eq x s.cur.b p nw d g res
  refine ⟨newUni x p nw d g res, h, ?_, ?_, ?_⟩
  · rintro rfl; rfl
  · rintro rfl; rfl
  · rw [Gives, he, Warp.uniResult, hw, Warp.advance]

/-! ### Decode checks (R53, R54) -/

/-- A word with the set bit of the uniform set is no lane word (R35). -/
theorem isLaneWord_uniform {i : Instr} {op low : Nat} (he : encodeHead i = some (opWord 1 op low)) (ho : op < 128)
    (hl : low < 2 ^ 24) : isLaneWord i = false := by
  simp [isLaneWord, he, opWord_set 1 op low (by decide) ho hl]

/-- The decode cause of a uniform word of every kind of core: its illegal fields come before its registers (R53, R54). -/
theorem decodeFault_uniform {e : Env} {i : Instr} (hlane : isLaneWord i = false) (hfw : firmwareOnly i = false) :
    decodeFault e i =
      ((lowestBad (fieldChecks e i ++ (operands i).map fun o => (o.legal e.width, o.bit))).map (Prod.mk 0x042)).or
        ((lowestBad ((operands i).map fun o => (o.allowed e (isSwitching i), o.bit))).map (Prod.mk 0x043)) := by
  simp only [decodeFault, hlane, hfw, Bool.and_false, Bool.false_eq_true, if_false]
  cases lowestBad (fieldChecks e i ++ (operands i).map fun o => (o.legal e.width, o.bit)) with
  | some b => rfl
  | none => cases lowestBad ((operands i).map fun o => (o.allowed e (isSwitching i), o.bit)) <;> rfl

theorem lowestBad_singleton (ok : Bool) (b : Nat) : lowestBad [(ok, b)] = if ok then none else some b := rfl

/-- Of the failing checks at these bits, the one whose bit is lowest is reported. -/
theorem lowestBad_bits (guard a b nwd x d : Bool) :
    lowestBad [(guard, 19), (a, 13), (b, 7), (nwd, 1), (x, 0), (d, 1)] =
      if x = false then some 0 else if nwd = false ∨ d = false then some 1 else if b = false then some 7
      else if a = false then some 13 else if guard = false then some 19 else none := by
  revert guard a b nwd x d; decide

/-- A uniform register code may be named where it names no register, a declared one, or a shadow register in a handler (R43, R340). -/
theorem named_iff (e : Env) (c : Nat) :
    e.named true c = true ↔ c < 16 ∨ 48 ≤ c ∨ c - 16 < e.ns ∨ (e.handler = true ∧ 40 ≤ c) := by
  cases hh : e.handler <;> simp [Env.named, hh] <;> omega

theorem dst_illegal_iff (uni : Bool) (c b w : Nat) : (Opnd.dst uni c b).legal w = false ↔ c ≠ 0 ∧ (c < 16 ∨ 48 ≤ c) := by
  simp [Opnd.legal]; omega

/-- The illegal field that is reported of a U3 word with a, b and x fixed at 0 (R54). -/
theorem lowestBad_unreadU3 (f : Fmt3) (w : Nat) :
    lowestBad [(!(f.g == 7 && f.neg), 19), (f.a == 0, 13), (f.b == 0, 7), (!(f.nw && f.d != 0), 1), (!f.x, 0),
        ((Opnd.dst true f.d.toNat 1).legal w, 1)] =
      if f.x = true then some 0
      else if (f.nw = true ∧ f.d.toNat ≠ 0) ∨ (f.d.toNat ≠ 0 ∧ (f.d.toNat < 16 ∨ 48 ≤ f.d.toNat)) then some 1
      else if f.b ≠ 0 then some 7
      else if f.a ≠ 0 then some 13
      else if f.g = 7 ∧ f.neg = true then some 19
      else none := by
  have hx : (!f.x) = false ↔ f.x = true := by simp
  have hnwd : (!(f.nw && f.d != 0)) = false ↔ f.nw = true ∧ f.d.toNat ≠ 0 := by simp [← BitVec.toNat_inj]
  have hguard : (!(f.g == 7 && f.neg)) = false ↔ f.g = 7 ∧ f.neg = true := by simp
  simp only [lowestBad_bits, hx, hnwd, dst_illegal_iff, beq_eq_false_iff_ne, hguard]

/-- A uniform word of every kind of core that reads no source has the checks of a U3 word with fixed sources. -/
theorem checksUni_of_unread {mk : Fmt3 → Instr} (hlane : ∀ f, isLaneWord (mk f) = false) (hfw : ∀ f, firmwareOnly (mk f) = false)
    (hfields : ∀ e f, fieldChecks e (mk f) =
      [(!(f.g == 7 && f.neg), 19), (f.a == 0, 13), (f.b == 0, 7), (!(f.nw && f.d != 0), 1), (!f.x, 0)])
    (hops : ∀ f, operands (mk f) = [.dst true f.d.toNat 1]) : ChecksUni mk true := by
  intro e f
  have hillegal := lowestBad_unreadU3 f e.width
  have hundeclared := lowestBad_singleton (e.named true f.d.toNat) 1
  rw [decodeFault_uniform (hlane f) (hfw f), hfields, hops]
  simp only [List.map_cons, List.map_nil, List.cons_append, List.nil_append, Opnd.bit, Opnd.allowed, hillegal, hundeclared,
    ← named_iff]
  by_cases ha : f.a = 0
  · have hlegal : ¬ 56 ≤ (0 : BitVec 6).toNat := by decide
    have hnamed : e.named true (0 : BitVec 6).toNat = true := rfl
    simp only [ha, hlegal, hnamed, ne_eq, not_true, and_false, or_false, if_false]
    split_ifs <;> rfl
  · simp only [ha, ne_eq, not_false_eq_true, and_self, true_or, if_true]
    split_ifs <;> rfl

/-! ### The task queries (R202, R203) -/

/-- On a compute core the state of a unit reads as it is. -/
theorem snapshot_compute {core : Nat} (h : core < 512) (s : State) (op : Nat) (fields v : DWord) :
    s.snapshot core op fields v = v := by
  simp [State.snapshot, isFw, h]

/-- TSELF's handle is that of the task but in a root warp and in a task run inline by SPAWN (R203). -/
theorem tself_eq (x : Warp) :
    x.tself = if x.task.kind = .root then 0 else if x.task.kind = .inlineSpawn then 2 ^ 32 else x.task.handle := by
  have hinline : inlineHandle = 2 ^ 32 := by decide
  cases hk : x.task.kind <;> simp [Warp.tself, hinline, hk]

/-- DQLEN's three counts at their places in Table 10 (R202). -/
theorem dqlen_eq (k : Core) (t l : Nat) :
    k.dqlen t l = BitVec.ofNat 64 ((2048 - ((k.tableOf t).filter fun e => e.2.st != .free).length) * 2 ^ 32 +
      (k.closures t).length * 2 ^ 16 + ((k.closures t).filter fun z => z.launch == l).length) := rfl

theorem exec_dqlen (f : Fmt3) (s : State) : exec (.dqlen f) s = execDqlen f s := rfl

theorem exec_tself (f : Fmt3) (s : State) : exec (.tself f) s = execTself f s := rfl

/-- DQLEN on a compute core gives its queue controller's counts (R202). -/
theorem dqlen_gives (f : Fmt3) {s : State} {x : Warp} {p : Split} (h : At s x p) (hc : s.cur.core < 512) :
    GivesUni (.dqlen f) s x p f.nw f.d.toNat (x.cguard f.g f.neg)
      ((s.core s.cur.core).dqlen (s.tenantOf x.launch) x.launch) 4 := by
  apply uniResult_gives
  rw [exec_dqlen, execDqlen, issue_at h rfl, snapshot_compute hc]

/-- TSELF on a compute core gives the warp's handle (R203). -/
theorem tself_gives (f : Fmt3) {s : State} {x : Warp} {p : Split} (h : At s x p) (hc : s.cur.core < 512) :
    GivesUni (.tself f) s x p f.nw f.d.toNat (x.cguard f.g f.neg) x.tself 4 := by
  apply uniResult_gives
  rw [exec_tself, execTself, issue_at h rfl, snapshot_compute hc]

theorem dqlen_checks : ChecksUni .dqlen true :=
  checksUni_of_unread (fun f => isLaneWord_uniform rfl (by decide) (enc3_lt f)) (fun _ => rfl) (fun _ _ => rfl) fun _ => rfl

theorem tself_checks : ChecksUni .tself true :=
  checksUni_of_unread (fun f => isLaneWord_uniform rfl (by decide) (enc3_lt f)) (fun _ => rfl) (fun _ _ => rfl) fun _ => rfl

/-- Settles O29: each word writes back one uniform result, which on a compute core is the queue controller's state as it stands at the
issue, or the handle of the running task. -/
theorem taskQueries : Obligations.TaskQueries := by
  refine ⟨by decide, by decide, dqlen_checks, tself_checks, ?_, ?_⟩
  · intro f s x p h hc
    simp only [← dqlen_eq]
    exact dqlen_gives f h hc
  · intro f s x p h hc
    rw [← tself_eq]
    exact tself_gives f h hc

end Sys2Proof.Proofs
end

section
/-! The engine queues' status word EQSTAT (R304): the decode checks of a U3 word that reads source a, the queue that a selector names,
the layout of Table 7, and O34. -/

namespace Sys2Proof.Proofs

open Sys2Proof Sys2Proof.Machine Sys2Proof.Claims Sys2Proof.Laws

/-! ### Decode checks of a word with one source (R53, R54) -/

/-- The operands' checks may stand before or after the fixed fields': the lowest bit is reported either way. -/
theorem lowestBad_source_last (guard a b nwd x d : Bool) :
    lowestBad [(guard, 19), (b, 7), (nwd, 1), (x, 0), (a, 13), (d, 1)] =
      lowestBad [(guard, 19), (a, 13), (b, 7), (nwd, 1), (x, 0), (d, 1)] := by
  revert guard a b nwd x d; decide

/-- A destination that may not be named is reported before such a source, whose field is higher. -/
theorem lowestBad_source_dst (a d : Bool) :
    lowestBad [(a, 13), (d, 1)] = if d = false then some 1 else if a = false then some 13 else none := by
  revert a d; decide

theorem src_illegal_iff (c b w : Nat) : (Opnd.src true c b).legal w = false ↔ 56 ≤ c := by
  simp [Opnd.legal]

/-- The illegal field that is reported of a U3 word that reads a, with b and x fixed at 0 (R54). -/
theorem lowestBad_readU3 (f : Fmt3) (w : Nat) :
    lowestBad [(!(f.g == 7 && f.neg), 19), (f.b == 0, 7), (!(f.nw && f.d != 0), 1), (!f.x, 0),
        ((Opnd.src true f.a.toNat 13).legal w, 13), ((Opnd.dst true f.d.toNat 1).legal w, 1)] =
      if f.x = true then some 0
      else if (f.nw = true ∧ f.d.toNat ≠ 0) ∨ (f.d.toNat ≠ 0 ∧ (f.d.toNat < 16 ∨ 48 ≤ f.d.toNat)) then some 1
      else if f.b ≠ 0 then some 7
      else if 56 ≤ f.a.toNat then some 13
      else if f.g = 7 ∧ f.neg = true then some 19
      else none := by
  have hx : (!f.x) = false ↔ f.x = true := by simp
  have hnwd : (!(f.nw && f.d != 0)) = false ↔ f.nw = true ∧ f.d.toNat ≠ 0 := by simp [← BitVec.toNat_inj]
  have hguard : (!(f.g == 7 && f.neg)) = false ↔ f.g = 7 ∧ f.neg = true := by simp
  simp only [lowestBad_source_last, lowestBad_bits, hx, hnwd, src_illegal_iff, dst_illegal_iff, beq_eq_false_iff_ne, hguard]

/-- A uniform word of every kind of core that reads source a alone and clears no latches has the checks of a U3 word whose a is
free. -/
theorem checksUni_of_read {mk : Fmt3 → Instr} (hlane : ∀ f, isLaneWord (mk f) = false) (hfw : ∀ f, firmwareOnly (mk f) = false)
    (hsw : ∀ f, isSwitching (mk f) = false)
    (hfields : ∀ e f, fieldChecks e (mk f) = [(!(f.g == 7 && f.neg), 19), (f.b == 0, 7), (!(f.nw && f.d != 0), 1), (!f.x, 0)])
    (hops : ∀ f, operands (mk f) = [.src true f.a.toNat 13, .dst true f.d.toNat 1]) : ChecksUni mk false := by
  intro e f
  have hillegal := lowestBad_readU3 f e.width
  have hundeclared := lowestBad_source_dst (e.named true f.a.toNat) (e.named true f.d.toNat)
  rw [decodeFault_uniform (hlane f) (hfw f), hfields, hops, hsw]
  simp only [List.map_cons, List.map_nil, List.cons_append, List.nil_append, Opnd.bit, Opnd.allowed, Bool.false_and, Bool.not_false,
    Bool.and_true, hillegal, hundeclared, ← named_iff, Bool.not_eq_true, Bool.false_eq_true, false_and, false_or]
  split_ifs <;> rfl

theorem eqstat_checks : ChecksUni .eqstat false :=
  checksUni_of_read (fun f => isLaneWord_uniform rfl (by decide) (enc3_lt f)) (fun _ => rfl) (fun _ => rfl) (fun _ _ => rfl)
    fun _ => rfl

/-! ### What EQSTAT gives -/

/-- The status that a selector reads on a core: that of the queue it names, and 0 where it names none. -/
def statusOf (s : State) (core tenant a : Nat) : DWord :=
  ((eqSelect core tenant a).map s.eqstat).getD 0

/-- Selectors 0 to 3 name the copy queues of a compute core's cluster. -/
theorem statusOf_copy {core a : Nat} (hc : core < 512) (ha : a < 4) (s : State) (t : Nat) :
    statusOf s core t a = s.eqstat ((core / 64 * 16 + core % 64 / 4) * 4 + a) := by
  simp [statusOf, eqSelect, copyQueue, coreDie, coreCluster, hc, ha]

/-- Selectors 0x10 and 0x11 name the collective queues of the partition on a compute core's die. -/
theorem statusOf_coll {core a : Nat} (hc : core < 512) (ha : a = 0x10 ∨ a = 0x11) (s : State) (t : Nat) :
    statusOf s core t a = s.eqstat (512 + (core / 64 * 32 + t) * 2 + (a - 0x10)) := by
  have hcopy : ¬ a < 4 := by omega
  simp [statusOf, eqSelect, collQueue, coreDie, hc, hcopy, ha]

theorem statusOf_other {a : Nat} (h4 : 4 ≤ a) (h16 : a ≠ 0x10) (h17 : a ≠ 0x11) (s : State) (core t : Nat) :
    statusOf s core t a = 0 := by
  have hcopy : ¬ a < 4 := by omega
  simp [statusOf, eqSelect, hcopy, h16, h17]

theorem exec_eqstat (f : Fmt3) (s : State) : exec (.eqstat f) s = execEqstat f s := rfl

/-- EQSTAT on a compute core writes back the status that its selector reads (R100, R304). -/
theorem eqstat_gives (f : Fmt3) {s : State} {x : Warp} {p : Split} (h : At s x p) (hc : s.cur.core < 512)
    (hr : UniReadable x p (x.cguard f.g f.neg) [f.a.toNat]) :
    GivesUni (.eqstat f) s x p f.nw f.d.toNat (x.cguard f.g f.neg)
      (statusOf s s.cur.core (s.tenantOf x.launch) ((x.uval p f.a.toNat).toNat % 256)) 4 := by
  have hfw : isFw s.cur.core = false := by simpa [isFw] using hc
  apply uniResult_gives
  rw [exec_eqstat, execEqstat, issue_at h rfl]
  simp only [hfw, Bool.and_false, Bool.false_and, Bool.false_eq_true, if_false, readCause_uni hr, snapshot_compute hc, statusOf]
  cases eqSelect s.cur.core (s.tenantOf x.launch) ((x.uval p f.a.toNat).toNat % 256) <;> rfl

/-! ### The layout of the status (Table 7 of R304) -/

/-- Whether the place at a queue's head waits: a QFENCE's join, or a collective whose peers are not there or have not read what its
chunk takes. -/
def headWaits (s : State) (l : List Place) : Bool :=
  match l.head? with
  | some (.join _) => true
  | some (.cmd i) =>
    match get s.engOps i with
    | some o => o.op == 0x52 && (!s.allReached o || s.awaitsPeers o)
    | none => false
  | none => false

theorem headWaits_of_join {l : List Place} {j : Nat} (h : l.head? = some (.join j)) (s : State) : headWaits s l = true := by
  simp [headWaits, h]

theorem headWaits_nil (s : State) : headWaits s [] = false := rfl

theorem headWaits_of_cmd {s : State} {l : List Place} {j : Nat} {o : EngOp} (h : l.head? = some (.cmd j))
    (ho : get s.engOps j = some o) :
    headWaits s l = true ↔ o.op = 0x52 ∧ (s.allReached o = false ∨ s.awaitsPeers o = true) := by
  simp [headWaits, h, ho]

theorem eqstat_eq (s : State) (q : Nat) :
    s.eqstat q = BitVec.ofNat 64
      ((s.engQueue q).done % 65536 * 2 ^ 32 + bit (headWaits s (s.engQueue q).places) * 2 ^ 16 + (s.engQueue q).places.length) := rfl

/-- The status of a queue as a number: its three fields, at most 64 places, do not overlap. -/
theorem eqstat_toNat {s : State} {q : Nat} {l : List Place} {n : Nat} (hq : get s.engQueues q = some { places := l, done := n })
    (hl : l.length ≤ 64) : (s.eqstat q).toNat = n % 65536 * 2 ^ 32 + bit (headWaits s l) * 2 ^ 16 + l.length := by
  have he : s.engQueue q = { places := l, done := n } := by simp [State.engQueue, hq]
  have hb := bit_lt (headWaits s l)
  simp only [eqstat_eq, he, BitVec.toNat_ofNat]
  omega

/-- DEPTH, DONE and STALL of a queue's status stand at their places. -/
theorem eqstat_fields {s : State} {q : Nat} {l : List Place} {n : Nat} (hq : get s.engQueues q = some { places := l, done := n })
    (hl : l.length ≤ 64) :
    (s.eqstat q).toNat % 2 ^ 16 = l.length ∧ (s.eqstat q).toNat / 2 ^ 32 = n % 65536 ∧
      (s.eqstat q).toNat / 2 ^ 16 % 2 ^ 16 = bit (headWaits s l) := by
  have hb := bit_lt (headWaits s l)
  rw [eqstat_toNat hq hl]
  omega

/-- Settles O34: on a compute core EQSTAT writes back the status of the queue that its selector names, whose fields do not overlap. -/
theorem engineStatus : Obligations.EngineStatus := by
  refine ⟨by decide, eqstat_checks, fun _ => rfl, ?_, ?_⟩
  · intro f s x p h hc g a hr
    have hgives := eqstat_gives f h hc hr
    refine ⟨fun ha => ?_, fun ha => ?_, fun h4 h16 h17 => ?_⟩
    · rwa [statusOf_copy hc ha] at hgives
    · rwa [statusOf_coll hc ha] at hgives
    · rwa [statusOf_other h4 h16 h17] at hgives
  · intro s q l n hq hl v
    obtain ⟨hdepth, hdone, hstall⟩ := eqstat_fields hq hl
    refine ⟨hdepth, hdone, fun j hj => ?_, fun hnil => ?_, fun j o hj ho => ?_⟩
    · rw [hstall, headWaits_of_join hj]; rfl
    · rw [hstall, hnil, headWaits_nil]; rfl
    · simp only [v, hstall, bit, headWaits_of_cmd hj ho]

end Sys2Proof.Proofs
end
